-- ==== Sys2Proof/Word.lean ====
section
/-! DEFINITION. The word types of the block: a port byte, a transaction word, the address latch. -/

namespace Sys2Proof

/-- The data of one port access: `PORT_W` = 8 bits (00_scope.md R9; 20_memory.md R44). -/
abbrev Byte := BitVec 8

/-- A transaction word `W S N Z OOOO DDDDDDDD` (30_encoding.md R61). -/
abbrev Txn := BitVec 16

/-- The value of the address latch: `LATCH_W` = 32 bits (00_scope.md R9; 10_state.md R21). -/
abbrev Latch := BitVec 32

end Sys2Proof
end

