-- ==== Sys2Proof/Config.lean ====
section
/-! DEFINITION. The parameters the spec leaves open (00_scope.md R10) as plain data, and the free values: opaque
constants with no body, so that nothing can be proved of what they are. -/

namespace Sys2Proof

/-! ## Parameters -/

/-- The port offsets of the flash window that the source does not place (00_scope.md R10; D1). -/
structure Layout where
  /-- `FLASH_OFF_CTRL`: the unlock-control write port. -/
  ctrl : BitVec 3
  /-- `FLASH_OFF_CMD`: the command/data write port. -/
  cmd : BitVec 3
  /-- `FLASH_OFF_DATA`: the even data read port. Its odd partner is `data + 1`. -/
  data : BitVec 3
deriving DecidableEq, Repr

/-- `SOUND_LANE_MODE` (00_scope.md R10; 42_ioboard.md R123). -/
inductive SoundLaneMode
  | verbatim
  | evenOnly
deriving DecidableEq, Repr

/-- The parameters of one machine, constant for a whole run (00_scope.md R10). -/
structure Params where
  layout : Layout
  /-- `UNLOCK_BIT`: the bit of an unlock-control write that is the flag (D2). -/
  unlockBit : Fin 8
  soundMode : SoundLaneMode
  /-- The exponent of `ROM_SIZE`: a size that is not a power of two from 1 to 2^32 has no representation (D6). -/
  romLog2 : Fin 33
deriving DecidableEq, Repr

/-! ## The queries a read can put to an external collaborator -/

/-- The four input-snapshot sources (00_scope.md R12). -/
inductive Snapshot
  | in0
  | system
  | in1
  | in2
deriving DecidableEq, Repr

/-- A read of an external collaborator, whose answer is a draw (20_memory.md R46). -/
inductive Query
  /-- `SndRead(i, peek)`. -/
  | sndRead (i : BitVec 2) (peek : Bool)
  /-- `Sample(src)`. -/
  | sample (src : Snapshot)
  /-- `EeDataOut()`: bit 0 of the answer is the level. -/
  | eeDataOut
deriving DecidableEq, Repr

/-- The three EEPROM input lines `EE.CS`, `EE.CLK`, `EE.DI` (10_state.md R20, R26). -/
structure EeLines where
  cs : Bool
  clk : Bool
  di : Bool
deriving DecidableEq, Repr, Inhabited

/-! ## Free values -/

/-- `ROM_IMAGE`: the byte at an index of the image that no cell of `State.rom` lists (D6, U11). Log 1. -/
opaque Config.romImage : Nat → Byte

/-- The exponent of `ROM_SIZE` of the machine that `State.reset` describes (D6). Log 2. -/
opaque Config.romLog2 : Fin 33

/-- `EEPROM_LINES_INIT`: the EEPROM lines before the first write to offset 0xC (D13, U6). Log 4. -/
opaque Config.eepromLinesInit : EeLines

/-- The answer to a query put by the access at a position of the host's sequence (20_memory.md R46; U2 to U4). Log 5. -/
opaque Config.freeDraw : Query → Nat → Byte

end Sys2Proof
end

