-- ==== Sys2Proof/Syntax.lean ====
section
/-! DEFINITION. The bus accesses as syntax: one constructor for each row of spec/opcode_table.json. -/

namespace Sys2Proof

/-- One bus access of the host (30_encoding.md R60). `data` is the byte written, `n` the peek qualifier of a read
(true for an inspection read), `off` a whole flash offset, `o` the low offset bits that an I/O row leaves free,
`i` the offset 0 to 3 of a sound access. -/
inductive Instr
  -- flash window, writes
  | flWlane0 (data : Byte)
  | flWctrl (data : Byte)
  | flWlane1 (data : Byte)
  | flWcmd (data : Byte)
  | flWlane2 (data : Byte)
  | flWnop (off : BitVec 3) (data : Byte)
  | flWlane3 (data : Byte)
  -- flash window, reads
  | flRzero01 (off : BitVec 3) (n : Bool)
  | flRdlo (n : Bool)
  | flRdhi (n : Bool)
  | flRzero47 (off : BitVec 3) (n : Bool)
  -- I/O board window, writes
  | ioSndw (i : BitVec 2) (data : Byte)
  | ioWnop47 (o : BitVec 2) (data : Byte)
  | ioWnop8b (o : BitVec 2) (data : Byte)
  | ioWee (data : Byte)
  | ioWnopd (data : Byte)
  | ioWnopef (o : BitVec 1) (data : Byte)
  -- I/O board window, reads
  | ioSndr (i : BitVec 2) (n : Bool)
  | ioRzero47 (o : BitVec 2) (n : Bool)
  | ioRin0 (n : Bool)
  | ioRsys (n : Bool)
  | ioRin1 (n : Bool)
  | ioRin2 (n : Bool)
  | ioRzerocd (o : BitVec 1) (n : Bool)
  | ioRee (n : Bool)
  | ioRzerof (n : Bool)
deriving DecidableEq, Repr

/-- The access is a read: `W` = 0 (30_encoding.md R60). -/
def Instr.isRead : Instr → Bool
  | .flWlane0 _ | .flWctrl _ | .flWlane1 _ | .flWcmd _ | .flWlane2 _ | .flWnop _ _ | .flWlane3 _ => false
  | .flRzero01 _ _ | .flRdlo _ | .flRdhi _ | .flRzero47 _ _ => true
  | .ioSndw _ _ | .ioWnop47 _ _ | .ioWnop8b _ _ | .ioWee _ | .ioWnopd _ | .ioWnopef _ _ => false
  | .ioSndr _ _ | .ioRzero47 _ _ | .ioRin0 _ | .ioRsys _ | .ioRin1 _ | .ioRin2 _ | .ioRzerocd _ _ | .ioRee _
  | .ioRzerof _ => true

/-- The access falls in the I/O board window: `S` = 1 (30_encoding.md R60). -/
def Instr.isIo : Instr → Bool
  | .flWlane0 _ | .flWctrl _ | .flWlane1 _ | .flWcmd _ | .flWlane2 _ | .flWnop _ _ | .flWlane3 _ => false
  | .flRzero01 _ _ | .flRdlo _ | .flRdhi _ | .flRzero47 _ _ => false
  | .ioSndw _ _ | .ioWnop47 _ _ | .ioWnop8b _ _ | .ioWee _ | .ioWnopd _ | .ioWnopef _ _ => true
  | .ioSndr _ _ | .ioRzero47 _ _ | .ioRin0 _ | .ioRsys _ | .ioRin1 _ | .ioRin2 _ | .ioRzerocd _ _ | .ioRee _
  | .ioRzerof _ => true

/-- The row's mnemonic in spec/opcode_table.json. -/
def Instr.mnemonic : Instr → String
  | .flWlane0 _ => "FL.WLANE0"
  | .flWctrl _ => "FL.WCTRL"
  | .flWlane1 _ => "FL.WLANE1"
  | .flWcmd _ => "FL.WCMD"
  | .flWlane2 _ => "FL.WLANE2"
  | .flWnop _ _ => "FL.WNOP"
  | .flWlane3 _ => "FL.WLANE3"
  | .flRzero01 _ _ => "FL.RZERO01"
  | .flRdlo _ => "FL.RDLO"
  | .flRdhi _ => "FL.RDHI"
  | .flRzero47 _ _ => "FL.RZERO47"
  | .ioSndw _ _ => "IO.SNDW"
  | .ioWnop47 _ _ => "IO.WNOP47"
  | .ioWnop8b _ _ => "IO.WNOP8B"
  | .ioWee _ => "IO.WEE"
  | .ioWnopd _ => "IO.WNOPD"
  | .ioWnopef _ _ => "IO.WNOPEF"
  | .ioSndr _ _ => "IO.SNDR"
  | .ioRzero47 _ _ => "IO.RZERO47"
  | .ioRin0 _ => "IO.RIN0"
  | .ioRsys _ => "IO.RSYS"
  | .ioRin1 _ => "IO.RIN1"
  | .ioRin2 _ => "IO.RIN2"
  | .ioRzerocd _ _ => "IO.RZEROCD"
  | .ioRee _ => "IO.REE"
  | .ioRzerof _ => "IO.RZEROF"

/-- The reserved words of 30_encoding.md R67, each with the spec's name for its refusal. -/
inductive ReservedWord
  /-- `reserved_z`: bit `Z` is set. -/
  | reservedZ
  /-- `outside_flash_window`: a flash offset 8 to 15. -/
  | outsideFlashWindow
  /-- `peek_on_write`: the peek qualifier on a write. -/
  | peekOnWrite
deriving DecidableEq, Repr

end Sys2Proof
end

