-- ==== Sys2Proof/WellFormed.lean ====
section
/-! DEFINITION. Which accesses a layout can express: the offset that an access carries is one its row stands for. -/

namespace Sys2Proof

/-- The flash offset is one of the two data ports (41_flash_reads.md R103). -/
def Layout.isDataPort (L : Layout) (off : BitVec 3) : Bool := off == L.data || off == L.data + 1

/-- The offset of FL.WNOP: odd, neither the control nor the command port (30_encoding.md R71). -/
def Layout.wnopOffset (L : Layout) (off : BitVec 3) : Bool := off.getLsbD 0 && off != L.ctrl && off != L.cmd

/-- The offset of FL.RZERO01: no data port, in the lower half of the window (30_encoding.md R64, R71; log 12). -/
def Layout.rzero01Offset (L : Layout) (off : BitVec 3) : Bool := !off.getLsbD 2 && !L.isDataPort off

/-- The offset of FL.RZERO47: no data port, in the upper half of the window (30_encoding.md R64, R71; log 12). -/
def Layout.rzero47Offset (L : Layout) (off : BitVec 3) : Bool := off.getLsbD 2 && !L.isDataPort off

/-- The access carries an offset that its row stands for under this layout (30_encoding.md R63 to R66, R71). -/
def Instr.wellFormed (L : Layout) : Instr → Bool
  | .flWnop off _ => L.wnopOffset off
  | .flRzero01 off _ => L.rzero01Offset off
  | .flRzero47 off _ => L.rzero47Offset off
  | .flWlane0 _ | .flWctrl _ | .flWlane1 _ | .flWcmd _ | .flWlane2 _ | .flWlane3 _ | .flRdlo _ | .flRdhi _ => true
  | .ioSndw _ _ | .ioWnop47 _ _ | .ioWnop8b _ _ | .ioWee _ | .ioWnopd _ | .ioWnopef _ _ => true
  | .ioSndr _ _ | .ioRzero47 _ _ | .ioRin0 _ | .ioRsys _ | .ioRin1 _ | .ioRin2 _ | .ioRzerocd _ _ | .ioRee _
  | .ioRzerof _ => true

end Sys2Proof
end

