-- ==== Sys2Proof/Decode.lean ====
section
/-! DEFINITION. The decoder of transaction words (30_encoding.md R61 to R71), total, refusing the reserved words by
name; the encoder; the opcode map as a table of rows. The reference values of the parameters stand here too. -/

namespace Sys2Proof

/-! ## The parameters: their constraints and reference values (00_scope.md R10) -/

/-- The reference layout: control 1, command 3, data ports 2 and 3 (00_scope.md R10). -/
def Layout.reference : Layout := { ctrl := 1, cmd := 3, data := 2 }

/-- The constraints of 00_scope.md R10: control and command on two distinct odd offsets, data on an even one. -/
def Layout.valid (L : Layout) : Bool :=
  L.ctrl.getLsbD 0 && L.cmd.getLsbD 0 && L.ctrl != L.cmd && !L.data.getLsbD 0

/-- `ROM_SIZE`: a power of two, from 1 to 2^32 (00_scope.md R10). -/
def Params.romSize (p : Params) : Nat := 2 ^ p.romLog2.val

/-- The parameters of the machine after reset: the spec's reference values (00_scope.md R10; log 3), the size of the
ROM image free (log 2). -/
def resetParams : Params :=
  { layout := Layout.reference, unlockBit := 0, soundMode := .verbatim, romLog2 := Config.romLog2 }

/-! ## The fields of a word (30_encoding.md R61) -/

/-- Bit 15, `W`: the access is a write. -/
def Txn.isWrite (w : Txn) : Bool := w.getLsbD 15

/-- Bit 14, `S`: the access is at the I/O board window. -/
def Txn.isIo (w : Txn) : Bool := w.getLsbD 14

/-- Bit 13, `N`: the peek qualifier. -/
def Txn.peek (w : Txn) : Bool := w.getLsbD 13

/-- Bit 12, `Z`: reserved. -/
def Txn.reservedBit (w : Txn) : Bool := w.getLsbD 12

/-- Bits 11:8, `OFF`. -/
def Txn.off (w : Txn) : BitVec 4 := w.extractLsb' 8 4

/-- Bits 7:0, `DATA`. -/
def Txn.data (w : Txn) : Byte := w.extractLsb' 0 8

/-- Bits 10:8: the offset within the 8-offset flash window. -/
def Txn.flashOff (w : Txn) : BitVec 3 := w.extractLsb' 8 3

/-! ## The four address decoders -/

/-- The lane index `OFF[2:1]` of an even flash offset (30_encoding.md R62). -/
def laneIndex (off : BitVec 3) : BitVec 2 := off.extractLsb' 1 2

/-- The flash window's write decoder, for any layout (30_encoding.md R63, R71). -/
def decodeFlashWrite (L : Layout) (off : BitVec 3) (data : Byte) : Instr :=
  if off.getLsbD 0 then
    if off = L.ctrl then .flWctrl data
    else if off = L.cmd then .flWcmd data
    else .flWnop off data
  else if laneIndex off = 0 then .flWlane0 data
  else if laneIndex off = 1 then .flWlane1 data
  else if laneIndex off = 2 then .flWlane2 data
  else .flWlane3 data

/-- The flash window's read decoder, for any layout (30_encoding.md R64, R71). -/
def decodeFlashRead (L : Layout) (off : BitVec 3) (n : Bool) : Instr :=
  if off = L.data then .flRdlo n
  else if off = L.data + 1 then .flRdhi n
  else if off.getLsbD 2 then .flRzero47 off n
  else .flRzero01 off n

/-- The I/O board window's write decoder (30_encoding.md R65). -/
def decodeIoWrite (off : BitVec 4) (data : Byte) : Instr :=
  if off ≤ 0x3#4 then .ioSndw (off.extractLsb' 0 2) data
  else if off ≤ 0x7#4 then .ioWnop47 (off.extractLsb' 0 2) data
  else if off ≤ 0xB#4 then .ioWnop8b (off.extractLsb' 0 2) data
  else if off = 0xC#4 then .ioWee data
  else if off = 0xD#4 then .ioWnopd data
  else .ioWnopef (off.extractLsb' 0 1) data

/-- The I/O board window's read decoder (30_encoding.md R66). -/
def decodeIoRead (off : BitVec 4) (n : Bool) : Instr :=
  if off ≤ 0x3#4 then .ioSndr (off.extractLsb' 0 2) n
  else if off ≤ 0x7#4 then .ioRzero47 (off.extractLsb' 0 2) n
  else if off = 0x8#4 then .ioRin0 n
  else if off = 0x9#4 then .ioRsys n
  else if off = 0xA#4 then .ioRin1 n
  else if off = 0xB#4 then .ioRin2 n
  else if off ≤ 0xD#4 then .ioRzerocd (off.extractLsb' 0 1) n
  else if off = 0xE#4 then .ioRee n
  else .ioRzerof n

/-- The reserved words: the first condition in the order of the table names the refusal (30_encoding.md R67). -/
def Txn.reserved (w : Txn) : Option ReservedWord :=
  if w.reservedBit then some .reservedZ
  else if !w.isIo && w.off.getLsbD 3 then some .outsideFlashWindow
  else if w.isWrite && w.peek then some .peekOnWrite
  else none

/-- The decoder of transaction words: total, and a function of the word and the layout alone (30_encoding.md R67, R70). -/
def decode (L : Layout) (w : Txn) : Except ReservedWord Instr :=
  match w.reserved with
  | some r => .error r
  | none => .ok <|
    match w.isIo, w.isWrite with
    | false, true => decodeFlashWrite L w.flashOff w.data
    | false, false => decodeFlashRead L w.flashOff w.peek
    | true, true => decodeIoWrite w.off w.data
    | true, false => decodeIoRead w.off w.peek

/-! ## The encoder -/

/-- The word with the given fields and `Z` = 0 (30_encoding.md R61). -/
def mkTxn (isWrite isIo peek : Bool) (off : BitVec 4) (data : Byte) : Txn :=
  BitVec.ofBool isWrite ++ BitVec.ofBool isIo ++ BitVec.ofBool peek ++ 0#1 ++ off ++ data

/-- A flash write of a byte at an offset (30_encoding.md R72, `OUT F+off, imm8`). -/
def flashWriteWord (off : BitVec 3) (data : Byte) : Txn := mkTxn true false false (0#1 ++ off) data

/-- A flash read at an offset, `DATA` written as 0 (30_encoding.md R61, R72, `IN F+off`, `PEEK F+off`). -/
def flashReadWord (off : BitVec 3) (n : Bool) : Txn := mkTxn false false n (0#1 ++ off) 0

/-- An I/O write of a byte at an offset (30_encoding.md R72, `OUT IO+off, imm8`). -/
def ioWriteWord (off : BitVec 4) (data : Byte) : Txn := mkTxn true true false off data

/-- An I/O read at an offset (30_encoding.md R72, `IN IO+off`, `PEEK IO+off`). -/
def ioReadWord (off : BitVec 4) (n : Bool) : Txn := mkTxn false true n off 0

/-- The word of an access under a layout (30_encoding.md R61, R63 to R66, R71). -/
def encode (L : Layout) : Instr → Txn
  | .flWlane0 data => flashWriteWord 0 data
  | .flWctrl data => flashWriteWord L.ctrl data
  | .flWlane1 data => flashWriteWord 2 data
  | .flWcmd data => flashWriteWord L.cmd data
  | .flWlane2 data => flashWriteWord 4 data
  | .flWnop off data => flashWriteWord off data
  | .flWlane3 data => flashWriteWord 6 data
  | .flRzero01 off n => flashReadWord off n
  | .flRdlo n => flashReadWord L.data n
  | .flRdhi n => flashReadWord (L.data + 1) n
  | .flRzero47 off n => flashReadWord off n
  | .ioSndw i data => ioWriteWord (0b00#2 ++ i) data
  | .ioWnop47 o data => ioWriteWord (0b01#2 ++ o) data
  | .ioWnop8b o data => ioWriteWord (0b10#2 ++ o) data
  | .ioWee data => ioWriteWord 0xC data
  | .ioWnopd data => ioWriteWord 0xD data
  | .ioWnopef o data => ioWriteWord (0b111#3 ++ o) data
  | .ioSndr i n => ioReadWord (0b00#2 ++ i) n
  | .ioRzero47 o n => ioReadWord (0b01#2 ++ o) n
  | .ioRin0 n => ioReadWord 0x8 n
  | .ioRsys n => ioReadWord 0x9 n
  | .ioRin1 n => ioReadWord 0xA n
  | .ioRin2 n => ioReadWord 0xB n
  | .ioRzerocd o n => ioReadWord (0b110#3 ++ o) n
  | .ioRee n => ioReadWord 0xE n
  | .ioRzerof n => ioReadWord 0xF n

/-! ## The opcode map (30_encoding.md section 3), row by row as the spec gives it -/

/-- One row: a word selects it when the bits under the mask are the row's (30_encoding.md section 3). -/
structure OpcodeRow where
  mnemonic : String
  bits : Txn
  mask : Txn
deriving DecidableEq, Repr

/-- The word selects the row. -/
def OpcodeRow.selects (r : OpcodeRow) (w : Txn) : Bool := (w &&& r.mask) == r.bits

/-- The flash window's rows, writes then reads. -/
def flashRows : List OpcodeRow :=
  [⟨"FL.WLANE0", 0x8000, 0xFF00⟩, ⟨"FL.WCTRL", 0x8100, 0xFF00⟩, ⟨"FL.WLANE1", 0x8200, 0xFF00⟩,
   ⟨"FL.WCMD", 0x8300, 0xFF00⟩, ⟨"FL.WLANE2", 0x8400, 0xFF00⟩, ⟨"FL.WNOP", 0x8500, 0xFD00⟩,
   ⟨"FL.WLANE3", 0x8600, 0xFF00⟩] ++
  [⟨"FL.RZERO01", 0x0000, 0xDE00⟩, ⟨"FL.RDLO", 0x0200, 0xDF00⟩, ⟨"FL.RDHI", 0x0300, 0xDF00⟩,
   ⟨"FL.RZERO47", 0x0400, 0xDC00⟩]

/-- The I/O board window's rows, writes then reads. -/
def ioRows : List OpcodeRow :=
  [⟨"IO.SNDW", 0xC000, 0xFC00⟩, ⟨"IO.WNOP47", 0xC400, 0xFC00⟩, ⟨"IO.WNOP8B", 0xC800, 0xFC00⟩,
   ⟨"IO.WEE", 0xCC00, 0xFF00⟩, ⟨"IO.WNOPD", 0xCD00, 0xFF00⟩, ⟨"IO.WNOPEF", 0xCE00, 0xFE00⟩] ++
  [⟨"IO.SNDR", 0x4000, 0xDC00⟩, ⟨"IO.RZERO47", 0x4400, 0xDC00⟩, ⟨"IO.RIN0", 0x4800, 0xDF00⟩,
   ⟨"IO.RSYS", 0x4900, 0xDF00⟩, ⟨"IO.RIN1", 0x4A00, 0xDF00⟩, ⟨"IO.RIN2", 0x4B00, 0xDF00⟩,
   ⟨"IO.RZEROCD", 0x4C00, 0xDE00⟩, ⟨"IO.REE", 0x4E00, 0xDF00⟩, ⟨"IO.RZEROF", 0x4F00, 0xDF00⟩]

/-- The opcode map of the reference layout: 26 rows. -/
def opcodeRows : List OpcodeRow := flashRows ++ ioRows

/-! ## What the host asks of the decoder -/

/-- The word that spec/opcode_table.json writes as `nbits` bits of the number `w`; every bit above is 0. -/
def tableWord (nbits w : Nat) : Txn := BitVec.ofNat 16 (w % 2 ^ nbits)

/-- The access that the decoder reads from a word of the opcode table (reference layout), none where it refuses. -/
def decodeTableWord (nbits w : Nat) : Option Instr :=
  match decode Layout.reference (tableWord nbits w) with
  | .ok i => some i
  | .error _ => none

end Sys2Proof
end

