-- ==== Sys2Proof/Machine/State.lean ====
section
/-! DEFINITION. The state of the machine as plain data, the reasons a step can stop, the state after reset. -/

namespace Sys2Proof.Machine

/-- `FSM`: the command state (10_state.md R23). -/
inductive Fsm
  | idle
  | unlock1
  | unlock2
deriving DecidableEq, Repr

/-- The bytes of the ROM image that are known: (index, byte), the index rising. An index not listed reads as
`Config.romImage` of it (log 1). -/
abbrev Memory := List Host.Cell

/-- One element of the host's sequence (D23): a reset, or an access. -/
inductive HostInput
  /-- The reset input (70_reset_and_hazards.md R170). -/
  | reset
  /-- One byte-wide access, as a transaction word (30_encoding.md R61). -/
  | access (w : Txn)
  /-- An access of more than one byte at a window: outside the block's interface (20_memory.md R44). -/
  | wide
deriving DecidableEq, Repr

/-- What one access does outside the block (00_scope.md R12). -/
inductive Event
  /-- `SndRead(i, peek)`, `Sample(src)` or `EeDataOut()`. -/
  | query (q : Query)
  /-- `SndWrite(i, v)`. -/
  | sndWrite (i : BitVec 2) (v : Byte)
  /-- `EeDrive(cs, clk, di)`. -/
  | eeDrive (lines : EeLines)
deriving DecidableEq, Repr

/-- A known answer of an external collaborator: what it answers to a query of the access at a position (log 5). -/
structure Answer where
  pos : Nat
  query : Query
  value : Byte
deriving DecidableEq, Repr

/-- The state. The first five fields are the block's own (10_state.md R20: "exactly the five elements"). `rom` and
`params` are constant for a run. The rest is the host's side: its sequence, and the observation of D23. -/
structure State where
  /-- `LATCH`, AddressLatch (10_state.md R21). -/
  latch : Latch
  /-- `FSM`, CommandState (10_state.md R23). -/
  fsm : Fsm
  /-- `CMD`, CommandByte (10_state.md R24). -/
  cmd : Byte
  /-- `UNLK`, UnlockFlag (10_state.md R25). -/
  unlk : Bool
  /-- `EE`, the EEPROM line latch (10_state.md R26). -/
  ee : EeLines
  /-- `ROM_IMAGE`, the known bytes (20_memory.md R41; log 1). -/
  rom : Memory
  /-- The parameters (00_scope.md R10; log 3). -/
  params : Params
  /-- The rest of the host's sequence, oldest first (D23; log 6). -/
  pending : List HostInput
  /-- How many elements of the host's sequence have been taken (10_state.md R31; log 5). -/
  pos : Nat
  /-- Answers of the external collaborators that are known in advance (log 5). -/
  inputs : List Answer
  /-- The bytes returned to the host, oldest first (D23; log 9). -/
  returned : List Byte
  /-- The external events, oldest first (D23; log 9). -/
  events : List Event
deriving DecidableEq, Repr

/-- The block raises no exception and no access has an error outcome (60_exceptions.md R150): no fault exists. -/
inductive Fault
deriving DecidableEq, Repr

/-- Why a step has no next state. None is a behaviour of the hardware (60_exceptions.md R152); each is safe, since
the model stops where it has nothing to say. -/
inductive Refusal
  /-- An arm of `exec` with no meaning yet. Raised by no arm of this model. Safe. -/
  | notModelled (mnemonic : String)
  /-- The word is reserved: raised by the decoder, through the fetch (30_encoding.md R67). Safe. -/
  | reserved (why : ReservedWord)
  /-- An access of more than one byte: raised by the fetch (20_memory.md R44, D7). Safe. -/
  | wideAccess
  /-- The layout breaks the constraints of 00_scope.md R10: raised by the fetch (60_exceptions.md R152). Safe. -/
  | invalidConfiguration
deriving DecidableEq, Repr

/-- The machine at the start of a run (70_reset_and_hazards.md R170, R171): nothing has been asked of it yet. -/
def State.reset : State where
  latch := 0
  fsm := .idle
  cmd := 0
  unlk := false
  ee := Config.eepromLinesInit
  rom := []
  params := resetParams
  pending := []
  pos := 0
  inputs := []
  returned := []
  events := []

end Sys2Proof.Machine
end

