-- ==== Sys2Proof/Machine/Operands.lean ====
section
/-! DEFINITION. The operand forms of the accesses (30_encoding.md R62): address lanes, the peek qualifier, sound
indices, the EEPROM line bits. -/

namespace Sys2Proof.Machine

/-- The encoding of `FSM` in 2 bits (10_state.md R23, D4). -/
def Fsm.code : Fsm → BitVec 2
  | .idle => 0
  | .unlock1 => 1
  | .unlock2 => 2

/-- Lane `i` of the latch, `LATCH[8i+7:8i]` (10_state.md R21). -/
def lane (l : Latch) (i : Fin 4) : Byte := l.extractLsb' (8 * i.val) 8

/-- The latch with lane 0 replaced (40_flash_writes.md R80). -/
def setLane0 (l : Latch) (b : Byte) : Latch := l.extractLsb' 8 24 ++ b

/-- The latch with lane 1 replaced (40_flash_writes.md R81). -/
def setLane1 (l : Latch) (b : Byte) : Latch := l.extractLsb' 16 16 ++ b ++ l.extractLsb' 0 8

/-- The latch with lane 2 replaced (40_flash_writes.md R82). -/
def setLane2 (l : Latch) (b : Byte) : Latch := l.extractLsb' 24 8 ++ b ++ l.extractLsb' 0 16

/-- The latch with lane 3 replaced (40_flash_writes.md R83). -/
def setLane3 (l : Latch) (b : Byte) : Latch := b ++ l.extractLsb' 0 24

/-- Latch-low16, `LATCH[15:0]` (00_scope.md R14). -/
abbrev low16 (l : Latch) : BitVec 16 := l.extractLsb' 0 16

/-- `se = NOT N` (30_encoding.md R62). -/
def sideEffecting (n : Bool) : Bool := !n

/-- The sound index that an offset 0 to 3 reaches, none where the offset behaves as unmapped (30_encoding.md R62;
42_ioboard.md R121 to R123). -/
def soundIndex (mode : SoundLaneMode) (off : BitVec 2) : Option (BitVec 2) :=
  match mode with
  | .verbatim => some off
  | .evenOnly => if off.getLsbD 0 then none else some (off >>> 1)

/-- The levels an EEPROM-line write drives: bit 0 chip-select, bit 1 clock, bit 2 data-in (42_ioboard.md R131). -/
def eeLinesOf (data : Byte) : EeLines :=
  { cs := data.getLsbD 0, clk := data.getLsbD 1, di := data.getLsbD 2 }

/-- What a read of the EEPROM data-out line returns: `0xFE` or-ed with the level (42_ioboard.md R132). -/
def eeDataByte (level : Bool) : Byte := 0xFE#8 ||| (BitVec.ofBool level).zeroExtend 8

end Sys2Proof.Machine
end

