-- ==== Sys2Proof/Machine/Flags.lean ====
section
/-! DEFINITION. The block has no condition flags (10_state.md R30). In their place: the unlock flag, the read-array
test, and the transition function of the command-state machine. -/

namespace Sys2Proof.Machine

/-- The value an unlock-control write gives `UNLK`: bit `UNLOCK_BIT` of the byte (40_flash_writes.md R84). -/
def unlockFlagOf (p : Params) (data : Byte) : Bool := data.getLsbD p.unlockBit.val

/-- Read-array mode: `CMD == 0xF0 and UNLK == 1` (41_flash_reads.md R100). -/
def State.readArray (s : State) : Bool := s.cmd == 0xF0#8 && s.unlk

/-- `FSM` after a command-port write of `v` while latch-low16 is `lo` (40_flash_writes.md R85 to R88). -/
def nextFsm (f : Fsm) (v : Byte) (lo : BitVec 16) : Fsm :=
  match f with
  | .idle => if v = 0xAA#8 ∧ lo = 0x5555#16 then .unlock1 else .idle
  | .unlock1 => if v = 0x55#8 ∧ lo = 0x2AAA#16 then .unlock2 else .unlock1
  | .unlock2 => if lo = 0x5555#16 then .idle else .unlock2

/-- `CMD` after a command-port write of `v` while latch-low16 is `lo` (40_flash_writes.md R87, R88). -/
def nextCmd (f : Fsm) (cmd v : Byte) (lo : BitVec 16) : Byte :=
  match f with
  | .idle => cmd
  | .unlock1 => cmd
  | .unlock2 => if lo = 0x5555#16 then v else cmd

end Sys2Proof.Machine
end

