-- ==== Sys2Proof/Machine/Ops.lean ====
section
/-! DEFINITION. The named operations over the ROM image and the registers, the primitives of 00_scope.md R12, the ROM
read path, and reset. Taking an exception and returning from one do not exist on this hardware (60_exceptions.md
R150, R155, R156): there is nothing to define for them. -/

namespace Sys2Proof.Machine

/-! ## The ROM image (20_memory.md R41) -/

/-- `MemRead(i, 1)`: the byte of the image at an index. It has no side effect (20_memory.md R41). -/
def Memory.read : Memory → Nat → Byte
  | [], i => Config.romImage i
  | (j, b) :: m, i => if i = j then b else Memory.read m i

/-- The image with one byte made known, in canonical form: the cell goes where its index belongs, and no cell is
kept where the byte is the one that an unlisted index reads as. No access calls this (the image is read-only to the
block, 20_memory.md R41): it stands for the loading of the image, which is outside the block (00_scope.md R4). -/
def Memory.load : Memory → Nat → Byte → Memory
  | [], i, b => if b = Config.romImage i then [] else [(i, b)]
  | (j, c) :: m, i, b =>
    if i < j then (if b = Config.romImage i then (j, c) :: m else (i, b) :: (j, c) :: m)
    else if i = j then (if b = Config.romImage i then m else (i, b) :: m)
    else (j, c) :: Memory.load m i b

/-- The canonical form: indices strictly rising, and no cell equal to what an unlisted index reads as (log 1). -/
def Memory.wf : Memory → Bool
  | [] => true
  | (i, b) :: m => b != Config.romImage i && m.all (fun c => decide (i < c.1)) && Memory.wf m

/-- Every listed index lies in the image: below `ROM_SIZE` (20_memory.md R40). -/
def Memory.within (m : Memory) (size : Nat) : Bool := m.all (fun c => decide (c.1 < size))

/-- The physical address `((LATCH << 1) + p) & (ROM_SIZE - 1)`, in 33 bits (41_flash_reads.md R102). -/
def romAddress (p : Params) (l : Latch) (parity : Bool) : BitVec 33 :=
  ((l.zeroExtend 33 <<< 1) + (BitVec.ofBool parity).zeroExtend 33) &&& BitVec.ofNat 33 (p.romSize - 1)

/-- The byte of the image that the latch and the parity bit select (41_flash_reads.md R100, R102). -/
def State.romByte (s : State) (parity : Bool) : Byte :=
  s.rom.read (romAddress s.params s.latch parity).toNat

/-! ## Updates of the registers and of the observation -/

/-- `LATCH <- l`. -/
def State.setLatch (s : State) (l : Latch) : State := { s with latch := l }

/-- `FSM <- f`. -/
def State.setFsm (s : State) (f : Fsm) : State := { s with fsm := f }

/-- `CMD <- c`. -/
def State.setCmd (s : State) (c : Byte) : State := { s with cmd := c }

/-- `UNLK <- u`. -/
def State.setUnlk (s : State) (u : Bool) : State := { s with unlk := u }

/-- `EE <- e`. -/
def State.setEe (s : State) (e : EeLines) : State := { s with ee := e }

/-- `return b`: the host receives the byte (00_scope.md R12). -/
def State.ret (s : State) (b : Byte) : State := { s with returned := s.returned ++ [b] }

/-- One external event (00_scope.md R12). -/
def State.emit (s : State) (e : Event) : State := { s with events := s.events ++ [e] }

/-- The next element of the host's sequence is taken: `rest` is what follows it. -/
def State.take (s : State) (rest : List HostInput) : State := { s with pending := rest, pos := s.pos + 1 }

/-! ## The external collaborators (00_scope.md R12; 20_memory.md R46) -/

/-- The first known answer to a query of the access at a position. -/
def findAnswer : List Answer → Nat → Query → Option Byte
  | [], _, _ => none
  | a :: rest, pos, q => if a.pos = pos ∧ a.query = q then some a.value else findAnswer rest pos q

/-- The draw that answers a query of the current access: the known answer, else a free value (20_memory.md R46). -/
def State.draw (s : State) (q : Query) : Byte :=
  match findAnswer s.inputs s.pos q with
  | some b => b
  | none => Config.freeDraw q s.pos

/-- A read of an 8-bit external source: one event, and the answer is returned. -/
def State.queryByte (s : State) (q : Query) : State := (s.emit (.query q)).ret (s.draw q)

/-- `return SndRead(index, N)` for an offset 0 to 3, or `return 0x00` where the offset behaves as unmapped
(42_ioboard.md R121, R123). -/
def State.soundRead (s : State) (off : BitVec 2) (n : Bool) : State :=
  match soundIndex s.params.soundMode off with
  | some i => s.queryByte (.sndRead i n)
  | none => s.ret 0

/-- `SndWrite(index, v)` for an offset 0 to 3, or nothing where the offset behaves as unmapped (42_ioboard.md R122,
R123). -/
def State.soundWrite (s : State) (off : BitVec 2) (v : Byte) : State :=
  match soundIndex s.params.soundMode off with
  | some i => s.emit (.sndWrite i v)
  | none => s

/-- `EE` takes the three levels and the EEPROM is presented with them, as one event (42_ioboard.md R131, R133). -/
def State.driveEe (s : State) (lines : EeLines) : State := (s.setEe lines).emit (.eeDrive lines)

/-- `return 0xFE | EeDataOut()`: bit 0 of the draw is the level (42_ioboard.md R132). -/
def State.readEeDataOut (s : State) : State :=
  (s.emit (.query .eeDataOut)).ret (eeDataByte ((s.draw .eeDataOut).getLsbD 0))

/-! ## The flash block -/

/-- `RomReadPath(p, se)` (41_flash_reads.md R100, R101): the byte is selected before the latch advances. -/
def State.romReadPath (s : State) (parity se : Bool) : State :=
  if s.readArray then
    (if parity && se then s.setLatch (s.latch + 1) else s).ret (s.romByte parity)
  else s.ret 0

/-- A write of the command/data port (40_flash_writes.md R88). -/
def State.commandWrite (s : State) (v : Byte) : State :=
  (s.setCmd (nextCmd s.fsm s.cmd v (low16 s.latch))).setFsm (nextFsm s.fsm v (low16 s.latch))

/-- `Reset()`: the four elements the reset contract names; `EE` is not written (70_reset_and_hazards.md R170). -/
def State.resetBlock (s : State) : State :=
  { s with latch := 0, fsm := .idle, cmd := 0, unlk := false }

end Sys2Proof.Machine
end

