-- ==== Sys2Proof/Machine/FlashRead.lean ====
section
/-! DEFINITION. The meanings of the flash window's reads (spec/41_flash_reads.md). -/

namespace Sys2Proof.Machine

/-- FL.RDLO (41_flash_reads.md R104): `return RomReadPath(0, NOT N)`. -/
def execFlRdlo (n : Bool) (s : State) : Host.Outcome State Fault Refusal :=
  .next (s.romReadPath false (sideEffecting n))

/-- FL.RDHI (41_flash_reads.md R105): `return RomReadPath(1, NOT N)`. -/
def execFlRdhi (n : Bool) (s : State) : Host.Outcome State Fault Refusal :=
  .next (s.romReadPath true (sideEffecting n))

/-- FL.RZERO01 (41_flash_reads.md R106). -/
def execFlRzero01 (_off : BitVec 3) (_n : Bool) (s : State) : Host.Outcome State Fault Refusal :=
  .next (s.ret 0)

/-- FL.RZERO47 (41_flash_reads.md R106). -/
def execFlRzero47 (_off : BitVec 3) (_n : Bool) (s : State) : Host.Outcome State Fault Refusal :=
  .next (s.ret 0)

end Sys2Proof.Machine
end

