-- ==== Sys2Proof/Machine/FlashWrite.lean ====
section
/-! DEFINITION. The meanings of the flash window's writes (spec/40_flash_writes.md). -/

namespace Sys2Proof.Machine

/-- FL.WLANE0 (40_flash_writes.md R80). -/
def execFlWlane0 (data : Byte) (s : State) : Host.Outcome State Fault Refusal :=
  .next (s.setLatch (setLane0 s.latch data))

/-- FL.WLANE1 (40_flash_writes.md R81). -/
def execFlWlane1 (data : Byte) (s : State) : Host.Outcome State Fault Refusal :=
  .next (s.setLatch (setLane1 s.latch data))

/-- FL.WLANE2 (40_flash_writes.md R82). -/
def execFlWlane2 (data : Byte) (s : State) : Host.Outcome State Fault Refusal :=
  .next (s.setLatch (setLane2 s.latch data))

/-- FL.WLANE3 (40_flash_writes.md R83). -/
def execFlWlane3 (data : Byte) (s : State) : Host.Outcome State Fault Refusal :=
  .next (s.setLatch (setLane3 s.latch data))

/-- FL.WCTRL (40_flash_writes.md R84). -/
def execFlWctrl (data : Byte) (s : State) : Host.Outcome State Fault Refusal :=
  .next (s.setUnlk (unlockFlagOf s.params data))

/-- FL.WCMD (40_flash_writes.md R85 to R88). -/
def execFlWcmd (data : Byte) (s : State) : Host.Outcome State Fault Refusal :=
  .next (s.commandWrite data)

/-- FL.WNOP (40_flash_writes.md R89): offset and byte are ignored, nothing is written. -/
def execFlWnop (_off : BitVec 3) (_data : Byte) (s : State) : Host.Outcome State Fault Refusal :=
  .next s

end Sys2Proof.Machine
end

