-- ==== Sys2Proof/Machine/IoBoard.lean ====
section
/-! DEFINITION. The meanings of the I/O board window's accesses (spec/42_ioboard.md). -/

namespace Sys2Proof.Machine

/-- IO.SNDW (42_ioboard.md R122). -/
def execIoSndw (i : BitVec 2) (data : Byte) (s : State) : Host.Outcome State Fault Refusal :=
  .next (s.soundWrite i data)

/-- IO.SNDR (42_ioboard.md R121). -/
def execIoSndr (i : BitVec 2) (n : Bool) (s : State) : Host.Outcome State Fault Refusal :=
  .next (s.soundRead i n)

/-- IO.RIN0 (42_ioboard.md R124). -/
def execIoRin0 (_n : Bool) (s : State) : Host.Outcome State Fault Refusal :=
  .next (s.queryByte (.sample .in0))

/-- IO.RSYS (42_ioboard.md R125). -/
def execIoRsys (_n : Bool) (s : State) : Host.Outcome State Fault Refusal :=
  .next (s.queryByte (.sample .system))

/-- IO.RIN1 (42_ioboard.md R126). -/
def execIoRin1 (_n : Bool) (s : State) : Host.Outcome State Fault Refusal :=
  .next (s.queryByte (.sample .in1))

/-- IO.RIN2 (42_ioboard.md R127). -/
def execIoRin2 (_n : Bool) (s : State) : Host.Outcome State Fault Refusal :=
  .next (s.queryByte (.sample .in2))

/-- IO.RZERO47 (42_ioboard.md R129). -/
def execIoRzero47 (_o : BitVec 2) (_n : Bool) (s : State) : Host.Outcome State Fault Refusal :=
  .next (s.ret 0)

/-- IO.RZEROCD (42_ioboard.md R129): `EE` is not readable. -/
def execIoRzerocd (_o : BitVec 1) (_n : Bool) (s : State) : Host.Outcome State Fault Refusal :=
  .next (s.ret 0)

/-- IO.RZEROF (42_ioboard.md R129). -/
def execIoRzerof (_n : Bool) (s : State) : Host.Outcome State Fault Refusal :=
  .next (s.ret 0)

/-- IO.WNOP47 (42_ioboard.md R130). -/
def execIoWnop47 (_o : BitVec 2) (_data : Byte) (s : State) : Host.Outcome State Fault Refusal :=
  .next s

/-- IO.WNOP8B (42_ioboard.md R130). -/
def execIoWnop8b (_o : BitVec 2) (_data : Byte) (s : State) : Host.Outcome State Fault Refusal :=
  .next s

/-- IO.WNOPD (42_ioboard.md R130). -/
def execIoWnopd (_data : Byte) (s : State) : Host.Outcome State Fault Refusal :=
  .next s

/-- IO.WNOPEF (42_ioboard.md R130). -/
def execIoWnopef (_o : BitVec 1) (_data : Byte) (s : State) : Host.Outcome State Fault Refusal :=
  .next s

/-- IO.WEE (42_ioboard.md R131). -/
def execIoWee (data : Byte) (s : State) : Host.Outcome State Fault Refusal :=
  .next (s.driveEe (eeLinesOf data))

/-- IO.REE (42_ioboard.md R132). -/
def execIoRee (_n : Bool) (s : State) : Host.Outcome State Fault Refusal :=
  .next s.readEeDataOut

end Sys2Proof.Machine
end

