-- ==== Sys2Proof/Machine/Dispatch.lean ====
section
/-! DEFINITION. The meaning of every access: one arm for each row of spec/opcode_table.json. -/

namespace Sys2Proof.Machine

def exec (i : Instr) (s : State) : Host.Outcome State Fault Refusal :=
  match i with
  -- flash window, writes
  | .flWlane0 data => Sys2Proof.Machine.execFlWlane0 data s
  | .flWctrl data => Sys2Proof.Machine.execFlWctrl data s
  | .flWlane1 data => Sys2Proof.Machine.execFlWlane1 data s
  | .flWcmd data => Sys2Proof.Machine.execFlWcmd data s
  | .flWlane2 data => Sys2Proof.Machine.execFlWlane2 data s
  | .flWnop off data => Sys2Proof.Machine.execFlWnop off data s
  | .flWlane3 data => Sys2Proof.Machine.execFlWlane3 data s
  -- flash window, reads
  | .flRzero01 off n => Sys2Proof.Machine.execFlRzero01 off n s
  | .flRdlo n => Sys2Proof.Machine.execFlRdlo n s
  | .flRdhi n => Sys2Proof.Machine.execFlRdhi n s
  | .flRzero47 off n => Sys2Proof.Machine.execFlRzero47 off n s
  -- I/O board window, writes
  | .ioSndw off data => Sys2Proof.Machine.execIoSndw off data s
  | .ioWnop47 o data => Sys2Proof.Machine.execIoWnop47 o data s
  | .ioWnop8b o data => Sys2Proof.Machine.execIoWnop8b o data s
  | .ioWee data => Sys2Proof.Machine.execIoWee data s
  | .ioWnopd data => Sys2Proof.Machine.execIoWnopd data s
  | .ioWnopef o data => Sys2Proof.Machine.execIoWnopef o data s
  -- I/O board window, reads
  | .ioSndr off n => Sys2Proof.Machine.execIoSndr off n s
  | .ioRzero47 o n => Sys2Proof.Machine.execIoRzero47 o n s
  | .ioRin0 n => Sys2Proof.Machine.execIoRin0 n s
  | .ioRsys n => Sys2Proof.Machine.execIoRsys n s
  | .ioRin1 n => Sys2Proof.Machine.execIoRin1 n s
  | .ioRin2 n => Sys2Proof.Machine.execIoRin2 n s
  | .ioRzerocd o n => Sys2Proof.Machine.execIoRzerocd o n s
  | .ioRee n => Sys2Proof.Machine.execIoRee n s
  | .ioRzerof n => Sys2Proof.Machine.execIoRzerof n s

end Sys2Proof.Machine
end

