-- ==== Sys2Proof/Machine/Fetch.lean ====
section
/-! DEFINITION. Taking the next element of the host's sequence: what plays the role of fetching an instruction
(10_state.md R31). -/

namespace Sys2Proof.Machine

/-- What the next element of the host's sequence asks for. -/
inductive Fetched
  /-- The host issues nothing. -/
  | idle
  /-- The reset input, with the state after taking it. -/
  | reset (t : State)
  /-- An access, with the state in which it runs. -/
  | access (i : Instr) (t : State)
  /-- Nothing of the hardware (60_exceptions.md R152; 20_memory.md R44). -/
  | refuse (why : Refusal)
deriving DecidableEq, Repr

/-- The next element. A word is decoded under the machine's layout (30_encoding.md R67, R71). A layout that breaks
the constraints is refused (60_exceptions.md R152). -/
def fetch (s : State) : Fetched :=
  if s.params.layout.valid then
    match s.pending with
    | [] => .idle
    | .reset :: rest => .reset (s.take rest)
    | .access w :: rest =>
      match decode s.params.layout w with
      | .ok i => .access i (s.take rest)
      | .error r => .refuse (.reserved r)
    | .wide :: _ => .refuse .wideAccess
  else .refuse .invalidConfiguration

/-- A word put in front of the host's sequence. -/
def State.issue (s : State) (w : Txn) : State := { s with pending := .access w :: s.pending }

end Sys2Proof.Machine
end

