-- ==== Sys2Proof/Machine/Step.lean ====
section
/-! DEFINITION. One step: one element of the host's sequence (D23), atomically (20_memory.md R49). -/

namespace Sys2Proof.Machine

/-- One transition: a reset, an access, or nothing where the host issues nothing (00_scope.md R7, R8; log 7). -/
def step (s : State) : Host.Outcome State Fault Refusal :=
  match fetch s with
  | .idle => .next s
  | .reset t => .next t.resetBlock
  | .access i t => exec i t
  | .refuse r => .refused r

/-- The state with a word of the opcode table as the next element of the host's sequence (log 6). -/
def State.withFetchWord (s : State) (nbits w : Nat) : State := s.issue (tableWord nbits w)

end Sys2Proof.Machine
end

