-- ==== Sys2Proof/Machine/Assembler.lean ====
section
/-! DEFINITION. The pseudo-instructions of the spec's notation (30_encoding.md R73): each is a sequence of words. They
are written over a layout; R73 gives them for the reference layout. -/

namespace Sys2Proof.Machine

/-- `SETLOW16 a`. -/
def asmSetLow16 (L : Layout) (a : BitVec 16) : List Txn :=
  [encode L (.flWlane0 (a.extractLsb' 0 8)), encode L (.flWlane1 (a.extractLsb' 8 8))]

/-- `SETLATCH a`. -/
def asmSetLatch (L : Layout) (a : BitVec 32) : List Txn :=
  [encode L (.flWlane0 (a.extractLsb' 0 8)), encode L (.flWlane1 (a.extractLsb' 8 8)),
   encode L (.flWlane2 (a.extractLsb' 16 8)), encode L (.flWlane3 (a.extractLsb' 24 8))]

/-- `UNLOCKCMD c`. -/
def asmUnlockCmd (L : Layout) (c : Byte) : List Txn :=
  asmSetLow16 L 0x5555 ++ [encode L (.flWcmd 0xAA)] ++ asmSetLow16 L 0x2AAA ++ [encode L (.flWcmd 0x55)] ++
    asmSetLow16 L 0x5555 ++ [encode L (.flWcmd c)]

/-- `READARRAY`: the byte 0x01 sets the flag where `UNLOCK_BIT` is the reference value 0. -/
def asmReadArray (L : Layout) : List Txn := asmUnlockCmd L 0xF0 ++ [encode L (.flWctrl 0x01)]

/-- `LOCK`. -/
def asmLock (L : Layout) : List Txn := [encode L (.flWctrl 0x00)]

/-- `RDWORD`. -/
def asmRdWord (L : Layout) : List Txn := [encode L (.flRdlo false), encode L (.flRdhi false)]

/-- `EEBITS cs, clk, di`. -/
def asmEeBits (L : Layout) (cs clk di : Bool) : List Txn :=
  [encode L (.ioWee (BitVec.zeroExtend 8 (BitVec.ofBool di ++ BitVec.ofBool clk ++ BitVec.ofBool cs)))]

/-- The words as elements of the host's sequence. -/
def accesses (ws : List Txn) : List HostInput := ws.map .access

end Sys2Proof.Machine
end

