-- ==== Sys2Proof/Safety.lean ====
section
/-! DEFINITION. The terms in which statements speak of steps and runs: what stays the same, the invariant, reads as
observed by the host. -/

namespace Sys2Proof.Machine

/-- The four flash elements are the same (70_reset_and_hazards.md R170 names them). -/
def SameFlash (s t : State) : Prop := t.latch = s.latch ∧ t.fsm = s.fsm ∧ t.cmd = s.cmd ∧ t.unlk = s.unlk

/-- The block's five elements are the same (10_state.md R20). -/
def SameBlock (s t : State) : Prop := SameFlash s t ∧ t.ee = s.ee

/-- What no access touches: every byte of the ROM image reads as before, and its cells, the parameters, the host's
coming inputs, the position and the known answers are the same. -/
def SameSurroundings (s t : State) : Prop :=
  (∀ a, t.rom.read a = s.rom.read a) ∧ t.rom = s.rom ∧ t.params = s.params ∧ t.pending = s.pending ∧
    t.pos = s.pos ∧ t.inputs = s.inputs

/-- The access returned exactly the byte `b`. -/
def Returns (s t : State) (b : Byte) : Prop := t.returned = s.returned ++ [b]

/-- The access returned nothing. -/
def ReturnsNothing (s t : State) : Prop := t.returned = s.returned

/-- The access performed exactly the external event `e`. -/
def Performs (s t : State) (e : Event) : Prop := t.events = s.events ++ [e]

/-- The access performed no external event. -/
def PerformsNothing (s t : State) : Prop := t.events = s.events

/-- The bit `N` of a word (30_encoding.md R61). -/
def peekBit (n : Bool) : Txn := if n then 0x2000#16 else 0#16

/-- The access replaced lane `i` of the latch by `d`, and did nothing else (40_flash_writes.md R80 to R83). -/
def LaneWritten (s t : State) (i : Fin 4) (d : Byte) : Prop :=
  lane t.latch i = d ∧ (∀ j, j ≠ i → lane t.latch j = lane s.latch j) ∧
    t.fsm = s.fsm ∧ t.cmd = s.cmd ∧ t.unlk = s.unlk ∧ t.ee = s.ee ∧
    ReturnsNothing s t ∧ PerformsNothing s t ∧ SameSurroundings s t

/-- The external events of an access, as the tables of 20_memory.md R47 and the list of R48 give them, the sound rows
by 42_ioboard.md R123. -/
def externalEffects (m : SoundLaneMode) : Instr → List Event
  | .ioSndr off n => (soundIndex m off).toList.map (fun i => .query (.sndRead i n))
  | .ioSndw off v => (soundIndex m off).toList.map (fun i => .sndWrite i v)
  | .ioRin0 _ => [.query (.sample .in0)]
  | .ioRsys _ => [.query (.sample .system)]
  | .ioRin1 _ => [.query (.sample .in1)]
  | .ioRin2 _ => [.query (.sample .in2)]
  | .ioRee _ => [.query .eeDataOut]
  | .ioWee d => [.eeDrive (eeLinesOf d)]
  | .flWlane0 _ | .flWctrl _ | .flWlane1 _ | .flWcmd _ | .flWlane2 _ | .flWnop _ _ | .flWlane3 _ => []
  | .flRzero01 _ _ | .flRdlo _ | .flRdhi _ | .flRzero47 _ _ => []
  | .ioWnop47 _ _ | .ioWnop8b _ _ | .ioWnopd _ | .ioWnopef _ _ => []
  | .ioRzero47 _ _ | .ioRzerocd _ _ | .ioRzerof _ => []

/-- The next element of the host's sequence is the reset input, and the layout is one that R10 allows. -/
def NextIsReset (s : State) : Prop := s.params.layout.valid = true ∧ ∃ rest, s.pending = .reset :: rest

/-- The next element of the host's sequence is a word that decodes to `i`, and the layout is one that R10 allows. -/
def NextIsAccess (s : State) (i : Instr) : Prop :=
  s.params.layout.valid = true ∧ ∃ w rest, s.pending = .access w :: rest ∧ decode s.params.layout w = .ok i

/-- The invariant of the machine: the layout is one that 00_scope.md R10 allows, the known ROM bytes are in canonical
form and inside the image, and no step so far gave the host more than one byte or the outside more than one event
(20_memory.md R49). -/
def State.inv (s : State) : Prop :=
  s.params.layout.valid = true ∧ s.rom.wf = true ∧ s.rom.within s.params.romSize = true ∧
    s.returned.length ≤ s.pos ∧ s.events.length ≤ s.pos

/-- `k` steps of the machine (Host/Core.lean), with the outcome in the machine's own types. -/
def runSteps (k : Nat) (s : State) : Host.Outcome State Fault Refusal := Host.Core.run Sys2Proof.core k s

/-- Index `i` of the ROM image, wrapped through the mask (41_flash_reads.md R102, R109). -/
def State.imageByte (s : State) (i : Nat) : Byte := s.rom.read (i % s.params.romSize)

/-- The words of `n` times `RDWORD` (30_encoding.md R73; 41_flash_reads.md R109). -/
def readWords (L : Layout) : Nat → List Txn
  | 0 => []
  | n + 1 => asmRdWord L ++ readWords L n

end Sys2Proof.Machine
end

