-- ==== Sys2Proof/Certificates/Slice0/Obligations.lean ====
section
/-! DEFINITION. The statements about the machine, for the provers. A docstring names the rule or the section of spec/
that a statement rests on. Where a clause rests on a decision that the spec marks as its own (D<n>) or on a choice of
the model (log <n>), the docstring says so. -/

open Sys2Proof Sys2Proof.Machine

/-! ## Flash window, writes -/

/-- 40_flash_writes.md R80 to R83: each lane write decodes from its word, completes, replaces its own byte of the latch
and touches nothing else. The last five clauses are the corner cases of R82 and R83: lanes 2 and 3 do not reach the
command machine, and reach the ROM address in larger images only, bit 31 of the latch in none. -/
def Obligations.LaneWritesReplaceTheirByte : Prop :=
  (∀ (s : State) (d : Byte),
    (decode Layout.reference (0x8000#16 ||| d.zeroExtend 16) = .ok (.flWlane0 d) ∧
      ∃ t, exec (.flWlane0 d) s = .next t ∧ LaneWritten s t 0 d) ∧
    (decode Layout.reference (0x8200#16 ||| d.zeroExtend 16) = .ok (.flWlane1 d) ∧
      ∃ t, exec (.flWlane1 d) s = .next t ∧ LaneWritten s t 1 d) ∧
    (decode Layout.reference (0x8400#16 ||| d.zeroExtend 16) = .ok (.flWlane2 d) ∧
      ∃ t, exec (.flWlane2 d) s = .next t ∧ LaneWritten s t 2 d) ∧
    (decode Layout.reference (0x8600#16 ||| d.zeroExtend 16) = .ok (.flWlane3 d) ∧
      ∃ t, exec (.flWlane3 d) s = .next t ∧ LaneWritten s t 3 d)) ∧
  (∀ (s t t1 t2 : State) (d v : Byte), exec (.flWlane2 d) s = .next t ∨ exec (.flWlane3 d) s = .next t →
    exec (.flWcmd v) s = .next t1 → exec (.flWcmd v) t = .next t2 → t2.fsm = t1.fsm ∧ t2.cmd = t1.cmd) ∧
  (∀ (s t : State) (d : Byte) (parity : Bool), exec (.flWlane2 d) s = .next t → s.params.romSize ≤ 2 ^ 17 →
    t.romByte parity = s.romByte parity) ∧
  (∀ (s t t' : State) (d d' : Byte) (parity : Bool), exec (.flWlane2 d) s = .next t →
    exec (.flWlane2 d') s = .next t' → 2 ^ 17 < s.params.romSize → d.getLsbD 0 ≠ d'.getLsbD 0 →
    romAddress t.params t.latch parity ≠ romAddress t'.params t'.latch parity) ∧
  (∀ (s t : State) (d : Byte) (parity : Bool), exec (.flWlane3 d) s = .next t → s.params.romSize ≤ 2 ^ 25 →
    t.romByte parity = s.romByte parity) ∧
  (∀ (s t t' : State) (d d' : Byte) (parity : Bool), exec (.flWlane3 d) s = .next t →
    exec (.flWlane3 d') s = .next t' → d'.extractLsb' 0 7 = d.extractLsb' 0 7 →
    t'.romByte parity = t.romByte parity)

/-- 20_memory.md R42: bytes 0 to 3 of the latch are written at offsets 0, 2, 4, 6; lane 0 is its least significant byte
and lane 3 its most significant one. The last clause is the source's property 6. -/
def Obligations.FourLaneWritesAssembleLittleEndian : Prop :=
  (∀ (L : Layout) (d : Byte),
    decode L (flashWriteWord 0 d) = .ok (.flWlane0 d) ∧ decode L (flashWriteWord 2 d) = .ok (.flWlane1 d) ∧
    decode L (flashWriteWord 4 d) = .ok (.flWlane2 d) ∧ decode L (flashWriteWord 6 d) = .ok (.flWlane3 d)) ∧
  (∀ (s : State) (b0 b1 b2 b3 : Byte), ∃ t1 t2 t3 t4,
    exec (.flWlane0 b0) s = .next t1 ∧ exec (.flWlane1 b1) t1 = .next t2 ∧
    exec (.flWlane2 b2) t2 = .next t3 ∧ exec (.flWlane3 b3) t3 = .next t4 ∧
    t4.latch = b3 ++ b2 ++ b1 ++ b0 ∧
    t4.fsm = s.fsm ∧ t4.cmd = s.cmd ∧ t4.unlk = s.unlk ∧ t4.ee = s.ee ∧ SameSurroundings s t4) ∧
  (∀ s : State, ∃ t1 t2 t3 t4,
    exec (.flWlane0 0x34) s = .next t1 ∧ exec (.flWlane1 0x12) t1 = .next t2 ∧
    exec (.flWlane2 0) t2 = .next t3 ∧ exec (.flWlane3 0) t3 = .next t4 ∧ t4.latch = 0x1234#32)

/-- 40_flash_writes.md R84, with the spec's own decisions D1 (the port) and D2 (the bit, and that a 0 clears; log 13):
the flag takes bit `UNLOCK_BIT` of the byte and nothing else changes. -/
def Obligations.UnlockControlWriteSetsTheFlag : Prop :=
  ∀ (s : State) (d : Byte),
    decode Layout.reference (0x8100#16 ||| d.zeroExtend 16) = .ok (.flWctrl d) ∧
    ∃ t, exec (.flWctrl d) s = .next t ∧ t.unlk = d.getLsbD s.params.unlockBit.val ∧
      t.latch = s.latch ∧ t.fsm = s.fsm ∧ t.cmd = s.cmd ∧ t.ee = s.ee ∧
      ReturnsNothing s t ∧ PerformsNothing s t ∧ SameSurroundings s t

/-- 40_flash_writes.md R85 and R86: the first two unlock steps, and that a mismatch leaves the state where it is. -/
def Obligations.UnlockStepsOneAndTwo : Prop :=
  ∀ (s : State) (v : Byte), ∃ t, exec (.flWcmd v) s = .next t ∧
    (s.fsm = .idle →
      t.cmd = s.cmd ∧
      (v = 0xAA#8 ∧ s.latch.extractLsb' 0 16 = 0x5555#16 → t.fsm = .unlock1) ∧
      (¬(v = 0xAA#8 ∧ s.latch.extractLsb' 0 16 = 0x5555#16) → t = s)) ∧
    (s.fsm = .unlock1 →
      t.cmd = s.cmd ∧
      (v = 0x55#8 ∧ s.latch.extractLsb' 0 16 = 0x2AAA#16 → t.fsm = .unlock2) ∧
      (¬(v = 0x55#8 ∧ s.latch.extractLsb' 0 16 = 0x2AAA#16) → t = s))

/-- 40_flash_writes.md R87, R88, R91: step 3 latches any command and returns to IDLE. That a write in UNLOCK2 at
another address is ignored is the spec's own decision D3 (log 14). The last clauses are the frame of the command write
in every state. -/
def Obligations.StepThreeLatchesAnyCommand : Prop :=
  ∀ (s : State) (v : Byte),
    decode Layout.reference (0x8300#16 ||| v.zeroExtend 16) = .ok (.flWcmd v) ∧
    ∃ t, exec (.flWcmd v) s = .next t ∧
      (s.fsm = .unlock2 → s.latch.extractLsb' 0 16 = 0x5555#16 → t.cmd = v ∧ t.fsm = .idle) ∧
      (s.fsm = .unlock2 → s.latch.extractLsb' 0 16 ≠ 0x5555#16 → t = s) ∧
      t.latch = s.latch ∧ t.unlk = s.unlk ∧ t.ee = s.ee ∧
      ReturnsNothing s t ∧ PerformsNothing s t ∧ SameSurroundings s t

/-- 40_flash_writes.md R89, the spec's own decision D20 (log 16): a write to an odd flash offset that is neither the
control nor the command port decodes to FL.WNOP, under every layout, and changes nothing. -/
def Obligations.UnusedFlashWriteChangesNothing : Prop :=
  (∀ (s : State) (off : BitVec 3) (d : Byte), exec (.flWnop off d) s = .next s) ∧
  ∀ (L : Layout) (off : BitVec 3) (d : Byte), off.getLsbD 0 = true → off ≠ L.ctrl → off ≠ L.cmd →
    decode L (flashWriteWord off d) = .ok (.flWnop off d)

/-! ## Flash window, reads -/

/-- 41_flash_reads.md R100: in read-array mode the two data ports return the byte that the latch and the parity bit
select, and the odd port advances the latch unless it is a peek. Otherwise they return 0 and change nothing. -/
def Obligations.ReadPathReturnsTheSelectedByte : Prop :=
  ∀ (s : State) (n : Bool), ∃ t0 t1, exec (.flRdlo n) s = .next t0 ∧ exec (.flRdhi n) s = .next t1 ∧
    (s.cmd = 0xF0#8 ∧ s.unlk = true →
      Returns s t0 (s.rom.read ((2 * s.latch.toNat + 0) &&& (s.params.romSize - 1))) ∧
      Returns s t1 (s.rom.read ((2 * s.latch.toNat + 1) &&& (s.params.romSize - 1))) ∧
      t1.latch = if n then s.latch else s.latch + 1) ∧
    (¬(s.cmd = 0xF0#8 ∧ s.unlk = true) → Returns s t0 0 ∧ Returns s t1 0 ∧ t1.latch = s.latch) ∧
    t0.latch = s.latch ∧
    (∀ t, t = t0 ∨ t = t1 → t.fsm = s.fsm ∧ t.cmd = s.cmd ∧ t.unlk = s.unlk ∧ t.ee = s.ee ∧
      PerformsNothing s t ∧ SameSurroundings s t)

/-- 41_flash_reads.md R101: the increment wraps modulo 2^32, happens under its three conditions only, comes after the
byte is selected, and no access but a lane write changes the latch otherwise. -/
def Obligations.LatchIncrementWrapsAndHappensNowhereElse : Prop :=
  (∀ (s : State) (n : Bool), ∃ t, exec (.flRdhi n) s = .next t ∧
    t.latch.toNat =
      (if s.cmd = 0xF0#8 ∧ s.unlk = true ∧ n = false then (s.latch.toNat + 1) % 2 ^ 32 else s.latch.toNat) ∧
    (s.latch = 0xFFFFFFFF#32 → s.cmd = 0xF0#8 → s.unlk = true → n = false → t.latch = 0#32) ∧
    (s.cmd = 0xF0#8 → s.unlk = true → Returns s t (s.romByte true))) ∧
  (∀ (i : Instr) (s t : State), exec i s = .next t → t.latch ≠ s.latch →
    (∃ d, i = .flWlane0 d ∨ i = .flWlane1 d ∨ i = .flWlane2 d ∨ i = .flWlane3 d) ∨
      (i = .flRdhi false ∧ s.cmd = 0xF0#8 ∧ s.unlk = true))

/-- 41_flash_reads.md R102 (a derived rule, with the spec's own decision D6 on the width): the physical address is
`concat(LATCH, p)` under the mask, it is a valid index, 32-bit arithmetic gives the same one, and with a size of 1 it
is 0. -/
def Obligations.RomAddressIsTheMaskedConcatenation : Prop :=
  ∀ (p : Params) (l : Latch) (parity : Bool),
    (romAddress p l parity).toNat < p.romSize ∧
    romAddress p l parity = (l ++ BitVec.ofBool parity) &&& BitVec.ofNat 33 (p.romSize - 1) ∧
    (romAddress p l parity).toNat = (2 * l.toNat + parity.toNat) % p.romSize ∧
    (romAddress p l parity).toNat =
      (((l <<< 1) + (BitVec.ofBool parity).zeroExtend 32) &&& BitVec.ofNat 32 (p.romSize - 1)).toNat ∧
    (p.romSize = 1 → romAddress p l parity = 0)

/-- 41_flash_reads.md R103, R106, with the spec's own decision D1 on the ports (and log 12 on which of the two rows
names a read under another layout): a read of any flash offset but the data ports returns 0 and changes nothing. -/
def Obligations.OtherFlashReadsReturnZero : Prop :=
  (∀ (s : State) (off : BitVec 3) (n : Bool), ∃ t, exec (.flRzero01 off n) s = .next t ∧ Returns s t 0 ∧
    SameBlock s t ∧ PerformsNothing s t ∧ SameSurroundings s t) ∧
  (∀ (s : State) (off : BitVec 3) (n : Bool), ∃ t, exec (.flRzero47 off n) s = .next t ∧ Returns s t 0 ∧
    SameBlock s t ∧ PerformsNothing s t ∧ SameSurroundings s t) ∧
  (∀ (L : Layout) (off : BitVec 3) (n : Bool), off ≠ L.data → off ≠ L.data + 1 →
    decode L (flashReadWord off n) = .ok (if off.getLsbD 2 then .flRzero47 off n else .flRzero01 off n))

/-- 41_flash_reads.md R107: a peek returns what the ordinary read returns, and never advances the latch. -/
def Obligations.PeekReturnsTheSameByteAndNeverAdvances : Prop :=
  ∀ (s : State), ∃ t0 t1, exec (.flRdhi false) s = .next t0 ∧ exec (.flRdhi true) s = .next t1 ∧
    t1.returned = t0.returned ∧ t1.latch = s.latch ∧ t0.setLatch s.latch = t1 ∧
    exec (.flRdlo true) s = exec (.flRdlo false) s ∧
    ∀ off, exec (.flRzero01 off true) s = exec (.flRzero01 off false) s ∧
      exec (.flRzero47 off true) s = exec (.flRzero47 off false) s

/-- 20_memory.md R47: every read completes, the side-effecting read of the odd data port in read-array mode is the one
read that changes the block, and the external effect of every read is the one its table gives. For the sound reads that
is the table's row under 42_ioboard.md R123, with the spec's own decision D10 (log 3): in `even_only` an odd offset has no
external effect. -/
def Obligations.OneReadChangesTheBlock : Prop :=
  (∀ (L : Layout) (n : Bool), decode L (flashReadWord (L.data + 1) n) = .ok (.flRdhi n)) ∧
  ∀ (i : Instr) (s : State), i.isRead = true → ∃ t, exec i s = .next t ∧
    (¬SameBlock s t ↔ i = .flRdhi false ∧ s.cmd = 0xF0#8 ∧ s.unlk = true) ∧
    (i = .flRdhi false → s.cmd = 0xF0#8 → s.unlk = true → t.latch = s.latch + 1) ∧
    t.events = s.events ++ externalEffects s.params.soundMode i ∧ SameSurroundings s t

/-- 20_memory.md R48 (with the spec's own decisions D10, D11 and D20): which element each write changes, what it sends
outside, and that it returns nothing. -/
def Obligations.WritesChangeTheirElementOnly : Prop :=
  ∀ (i : Instr) (s : State), i.isRead = false → ∃ t, exec i s = .next t ∧ ReturnsNothing s t ∧
    t.events = s.events ++ externalEffects s.params.soundMode i ∧ SameSurroundings s t ∧
    (t.latch ≠ s.latch → ∃ d, i = .flWlane0 d ∨ i = .flWlane1 d ∨ i = .flWlane2 d ∨ i = .flWlane3 d) ∧
    (t.unlk ≠ s.unlk → ∃ d, i = .flWctrl d) ∧
    (t.fsm ≠ s.fsm ∨ t.cmd ≠ s.cmd → ∃ d, i = .flWcmd d) ∧
    (t.ee ≠ s.ee → ∃ d, i = .ioWee d)

/-! ## I/O board window -/

/-- 42_ioboard.md R121, R123 (the spec's own decisions D10, D16, D17): a sound read is a draw of the index that its
offset reaches, with the peek bit passed on. Under `even_only` an odd offset reads as unmapped. -/
def Obligations.SoundReadDrawsItsIndex : Prop :=
  ∀ (s : State) (off : BitVec 2) (n : Bool),
    decode Layout.reference (0x4000#16 ||| (off.zeroExtend 16 <<< 8) ||| peekBit n) = .ok (.ioSndr off n) ∧
    ∃ t, exec (.ioSndr off n) s = .next t ∧
    (s.params.soundMode = .verbatim →
      Returns s t (s.draw (.sndRead off n)) ∧ Performs s t (.query (.sndRead off n))) ∧
    (s.params.soundMode = .evenOnly → off = 0 ∨ off = 2 →
      Returns s t (s.draw (.sndRead (if off = 2 then 1 else 0) n)) ∧
        Performs s t (.query (.sndRead (if off = 2 then 1 else 0) n))) ∧
    (s.params.soundMode = .evenOnly → off = 1 ∨ off = 3 → Returns s t 0 ∧ PerformsNothing s t) ∧
    SameBlock s t ∧ SameSurroundings s t

/-- 42_ioboard.md R122, R123 (the spec's own decisions D10, D16): a sound write sends one event with its byte to the
index that its offset reaches. Under `even_only` an odd offset does nothing. -/
def Obligations.SoundWriteForwardsItsByte : Prop :=
  ∀ (s : State) (off : BitVec 2) (v : Byte),
    decode Layout.reference (0xC000#16 ||| (off.zeroExtend 16 <<< 8) ||| v.zeroExtend 16) = .ok (.ioSndw off v) ∧
    ∃ t, exec (.ioSndw off v) s = .next t ∧
    (s.params.soundMode = .verbatim → Performs s t (.sndWrite off v)) ∧
    (s.params.soundMode = .evenOnly → off = 0 ∨ off = 2 → Performs s t (.sndWrite (if off = 2 then 1 else 0) v)) ∧
    (s.params.soundMode = .evenOnly → off = 1 ∨ off = 3 → PerformsNothing s t) ∧
    ReturnsNothing s t ∧ SameBlock s t ∧ SameSurroundings s t

/-- 42_ioboard.md R124 to R128 (the spec's own decision D14): each snapshot read returns the draw of its own source. -/
def Obligations.SnapshotReadsReturnTheirOwnSource : Prop :=
  ∀ (s : State) (n : Bool),
    decode Layout.reference (0x4800#16 ||| peekBit n) = .ok (.ioRin0 n) ∧
    decode Layout.reference (0x4900#16 ||| peekBit n) = .ok (.ioRsys n) ∧
    decode Layout.reference (0x4A00#16 ||| peekBit n) = .ok (.ioRin1 n) ∧
    decode Layout.reference (0x4B00#16 ||| peekBit n) = .ok (.ioRin2 n) ∧ ∃ t0 t1 t2 t3,
    exec (.ioRin0 n) s = .next t0 ∧ exec (.ioRsys n) s = .next t1 ∧
    exec (.ioRin1 n) s = .next t2 ∧ exec (.ioRin2 n) s = .next t3 ∧
    Returns s t0 (s.draw (.sample .in0)) ∧ Performs s t0 (.query (.sample .in0)) ∧
    Returns s t1 (s.draw (.sample .system)) ∧ Performs s t1 (.query (.sample .system)) ∧
    Returns s t2 (s.draw (.sample .in1)) ∧ Performs s t2 (.query (.sample .in1)) ∧
    Returns s t3 (s.draw (.sample .in2)) ∧ Performs s t3 (.query (.sample .in2)) ∧
    ∀ t, t = t0 ∨ t = t1 ∨ t = t2 ∨ t = t3 → SameBlock s t ∧ SameSurroundings s t

/-- 42_ioboard.md R129 (the spec's own decision D11 for offset 0xC, log 15): a read of an unmapped or write-only
offset returns 0 and changes nothing. The second clause says it of the words at offsets 4 to 7, 0xC, 0xD and 0xF. -/
def Obligations.UnmappedIoReadsReturnZero : Prop :=
  (∀ (s : State) (o2 : BitVec 2) (o1 : BitVec 1) (n : Bool), ∃ t,
    exec (.ioRzero47 o2 n) s = .next t ∧ exec (.ioRzerocd o1 n) s = .next t ∧ exec (.ioRzerof n) s = .next t ∧
    Returns s t 0 ∧ SameBlock s t ∧ PerformsNothing s t ∧ SameSurroundings s t) ∧
  ∀ (s : State) (L : Layout) (off : BitVec 4) (n : Bool),
    (4 ≤ off.toNat ∧ off.toNat ≤ 7) ∨ off = 0xC ∨ off = 0xD ∨ off = 0xF →
    ∃ i t, decode L (0x4000#16 ||| (off.zeroExtend 16 <<< 8) ||| peekBit n) = .ok i ∧ exec i s = .next t ∧
      Returns s t 0

/-- 42_ioboard.md R130 (the spec's own decision D11, log 15): a write to an unmapped or read-only offset changes
nothing at all. The second clause says it of the words at offsets 4 to 0xB, 0xD, 0xE and 0xF. -/
def Obligations.UnmappedIoWritesDoNothing : Prop :=
  (∀ (s : State) (o2 : BitVec 2) (o1 : BitVec 1) (d : Byte),
    exec (.ioWnop47 o2 d) s = .next s ∧ exec (.ioWnop8b o2 d) s = .next s ∧
    exec (.ioWnopd d) s = .next s ∧ exec (.ioWnopef o1 d) s = .next s) ∧
  ∀ (s : State) (L : Layout) (off : BitVec 4) (d : Byte), 4 ≤ off.toNat → off ≠ 0xC →
    ∃ i, decode L (0xC000#16 ||| (off.zeroExtend 16 <<< 8) ||| d.zeroExtend 16) = .ok i ∧ exec i s = .next s

/-- 42_ioboard.md R131 (the spec's own decision D12: one event): bit 0 is chip-select, bit 1 the clock, bit 2 data-in,
the other bits are ignored. -/
def Obligations.EepromWriteDrivesThreeLines : Prop :=
  ∀ (s : State) (d : Byte),
    decode Layout.reference (0xCC00#16 ||| d.zeroExtend 16) = .ok (.ioWee d) ∧
    ∃ t, exec (.ioWee d) s = .next t ∧
      t.ee.cs = d.getLsbD 0 ∧ t.ee.clk = d.getLsbD 1 ∧ t.ee.di = d.getLsbD 2 ∧
      Performs s t (.eeDrive { cs := d.getLsbD 0, clk := d.getLsbD 1, di := d.getLsbD 2 }) ∧
      ReturnsNothing s t ∧ SameFlash s t ∧ SameSurroundings s t ∧
      ∀ d' : Byte, (∀ k, k < 3 → d'.getLsbD k = d.getLsbD k) → exec (.ioWee d') s = .next t

/-- 42_ioboard.md R132 (the spec's own decision D15): bits 7:1 of the byte are 1, bit 0 is the data-out level, and the
block does not change. -/
def Obligations.EepromDataOutReadsFEOrFF : Prop :=
  ∀ (s : State) (n : Bool), decode Layout.reference (0x4E00#16 ||| peekBit n) = .ok (.ioRee n) ∧
    ∃ t b, exec (.ioRee n) s = .next t ∧ Returns s t b ∧
    b.getLsbD 0 = (s.draw .eeDataOut).getLsbD 0 ∧ (∀ k, 1 ≤ k → k < 8 → b.getLsbD k = true) ∧
    (b = 0xFE#8 ∨ b = 0xFF#8) ∧ Performs s t (.query .eeDataOut) ∧ SameBlock s t ∧ SameSurroundings s t

/-! ## The whole machine -/

/-- 60_exceptions.md R150: no access has an error outcome. Every access completes, a read returning one byte and a
write nothing, and no step ends in a fault. -/
def Obligations.EveryAccessCompletes : Prop :=
  (∀ (i : Instr) (s : State), ∃ t, exec i s = .next t ∧
    (i.isRead = true → ∃ b, Returns s t b) ∧ (i.isRead = false → ReturnsNothing s t)) ∧
  ∀ (s : State) (f : Fault), step s ≠ .fault f

/-- 20_memory.md R49: a step is one transition with at most one external interaction and at most one returned byte,
and it takes at most one element of the host's sequence. The clauses on the sequence and the position are the model's
own choice: the sequence `pending` (log 6), the counter `pos` (log 5), and that a step with nothing issued takes nothing
(log 7). -/
def Obligations.EachStepIsOneTransition : Prop :=
  ∀ s t : State, step s = .next t →
    (∃ bs, t.returned = s.returned ++ bs ∧ bs.length ≤ 1) ∧ (∃ es, t.events = s.events ++ es ∧ es.length ≤ 1) ∧
    t.pending = s.pending.tail ∧ t.pos = (if s.pending = [] then s.pos else s.pos + 1)

/-- 00_scope.md R14: only latch-low16 takes part in the unlock comparisons. Two states with the same latch-low16, `FSM`
and `CMD`, whatever else they hold, make the same transition on a command write. -/
def Obligations.UpperLatchNeverAffectsTheCommandMachine : Prop :=
  ∀ (s s' : State) (v : Byte), s'.latch.extractLsb' 0 16 = s.latch.extractLsb' 0 16 → s'.fsm = s.fsm →
    s'.cmd = s.cmd → ∃ t t', exec (.flWcmd v) s = .next t ∧ exec (.flWcmd v) s' = .next t' ∧
      t'.fsm = t.fsm ∧ t'.cmd = t.cmd

/-- 40_flash_writes.md R90 (a derived rule): the command machine does not see the unlock flag, the unlock-control
write does not see the command machine, and data-port reads do not see `FSM`. -/
def Obligations.CommandMachineAndUnlockFlagAreIndependent : Prop :=
  (∀ (s t : State) (v : Byte) (u : Bool), exec (.flWcmd v) s = .next t →
    t.unlk = s.unlk ∧ exec (.flWcmd v) (s.setUnlk u) = .next (t.setUnlk u)) ∧
  (∀ (s t : State) (d : Byte) (f : Fsm) (c : Byte), exec (.flWctrl d) s = .next t →
    t.fsm = s.fsm ∧ t.cmd = s.cmd ∧ exec (.flWctrl d) ((s.setFsm f).setCmd c) = .next ((t.setFsm f).setCmd c)) ∧
  (∀ (i : Instr) (s t : State) (f : Fsm) (n : Bool), i = .flRdlo n ∨ i = .flRdhi n → exec i s = .next t →
    t.fsm = s.fsm ∧ exec i (s.setFsm f) = .next (t.setFsm f))

/-- 40_flash_writes.md R93 (a derived rule): of `CMD` only the test for 0xF0 matters. Changing `CMD` to another value
with the same test changes nothing of what an access does, but the value of `CMD` itself. -/
def Obligations.CommandByteMattersOnlyAsTheReadArrayTest : Prop :=
  ∀ (i : Instr) (s : State) (c : Byte), (c = 0xF0#8 ↔ s.cmd = 0xF0#8) →
    ∃ t t', exec i s = .next t ∧ exec i (s.setCmd c) = .next t' ∧ t'.setCmd t.cmd = t ∧
      (t'.cmd = t.cmd ∨ (t.cmd = s.cmd ∧ t'.cmd = c))

/-- 10_state.md R28 (a derived rule): outside read-array mode no byte returned and no external event depends on
`LATCH`, and none ever depends on `FSM`. -/
def Obligations.HiddenStateShowsOnlyThroughReadArray : Prop :=
  ∀ (i : Instr) (s : State) (l : Latch) (f : Fsm), ∃ t tl tf, exec i s = .next t ∧
    exec i (s.setLatch l) = .next tl ∧ exec i (s.setFsm f) = .next tf ∧
    tf.returned = t.returned ∧ tf.events = t.events ∧
    (¬(s.cmd = 0xF0#8 ∧ s.unlk = true) → tl.returned = t.returned ∧ tl.events = t.events)

/-- 42_ioboard.md R134 (a derived rule): the two windows share no state. -/
def Obligations.WindowsShareNoState : Prop :=
  (∀ (i : Instr) (s t : State) (l : Latch) (f : Fsm) (c : Byte) (u : Bool), i.isIo = true → exec i s = .next t →
    SameFlash s t ∧
    exec i { s with latch := l, fsm := f, cmd := c, unlk := u } =
      .next { t with latch := l, fsm := f, cmd := c, unlk := u }) ∧
  (∀ (i : Instr) (s t : State) (e : EeLines), i.isIo = false → exec i s = .next t →
    t.ee = s.ee ∧ PerformsNothing s t ∧ exec i (s.setEe e) = .next (t.setEe e))

/-- The table of 10_state.md R20 ("written by"), for a step, with the spec's own decision D13 for `EE`: which element of
the host's sequence changes which element of the block. -/
def Obligations.ElementsChangeByTheirWritersOnly : Prop :=
  ∀ s t : State, step s = .next t →
    (t.latch ≠ s.latch → NextIsReset s ∨
      (∃ d i, NextIsAccess s i ∧ (i = .flWlane0 d ∨ i = .flWlane1 d ∨ i = .flWlane2 d ∨ i = .flWlane3 d)) ∨
      (NextIsAccess s (.flRdhi false) ∧ s.cmd = 0xF0#8 ∧ s.unlk = true)) ∧
    (t.fsm ≠ s.fsm → NextIsReset s ∨ ∃ v, NextIsAccess s (.flWcmd v)) ∧
    (t.cmd ≠ s.cmd → NextIsReset s ∨
      ∃ v, NextIsAccess s (.flWcmd v) ∧ s.fsm = .unlock2 ∧ s.latch.extractLsb' 0 16 = 0x5555#16 ∧ t.cmd = v) ∧
    (t.unlk ≠ s.unlk → NextIsReset s ∨ ∃ d, NextIsAccess s (.flWctrl d)) ∧
    (t.ee ≠ s.ee → ∃ d, NextIsAccess s (.ioWee d)) ∧
    t.rom = s.rom ∧ t.params = s.params ∧ t.inputs = s.inputs

/-- 40_flash_writes.md R92 (a derived rule, with the spec's own decision D3, log 14): the only ways back to IDLE are
step 3 and reset. -/
def Obligations.IdleIsReachedByStepThreeOrResetOnly : Prop :=
  ∀ s t : State, step s = .next t → s.fsm ≠ .idle → t.fsm = .idle →
    NextIsReset s ∨
      ∃ v, NextIsAccess s (.flWcmd v) ∧ s.fsm = .unlock2 ∧ s.latch.extractLsb' 0 16 = 0x5555#16 ∧ t.cmd = v

/-- 20_memory.md R41: however many steps run, every byte of the image reads as before, and the read path only ever
reads inside the image. -/
def Obligations.RomImageIsConstantAndReadInRange : Prop :=
  (∀ (k : Nat) (s t : State), runSteps k s = .next t →
    (∀ a, t.rom.read a = s.rom.read a) ∧ t.params = s.params) ∧
  ∀ (s : State) (parity : Bool), (romAddress s.params s.latch parity).toNat < s.params.romSize

/-! ## Steps, reset, refusals -/

/-- 30_encoding.md R70, 20_memory.md R55, D23: when the next element of the host's sequence is a word that decodes to
`i`, a step is `exec i` in the state with that element taken and the position advanced by one. -/
def Obligations.StepRunsTheDecodedAccess : Prop :=
  ∀ (s : State) (w : Txn) (rest : List HostInput) (i : Instr), s.params.layout.valid = true →
    s.pending = .access w :: rest → decode s.params.layout w = .ok i →
    step s = exec i { s with pending := rest, pos := s.pos + 1 }

/-- 00_scope.md R8: the reset input is a transition of its own between two accesses that zeroes the four flash
elements. What it leaves alone is in ResetKeepsEverythingElse. -/
def Obligations.ResetZeroesTheFlashElements : Prop :=
  ∀ (s : State) (rest : List HostInput), s.params.layout.valid = true → s.pending = .reset :: rest →
    ∃ t, step s = .next t ∧ t.latch = 0#32 ∧ t.fsm = .idle ∧ t.cmd = 0#8 ∧ t.unlk = false ∧ t.pending = rest

/-- 70_reset_and_hazards.md R170, with the spec's own decision D13 (log 4): reset leaves `EE` and all that is outside
the block as it is. -/
def Obligations.ResetKeepsEverythingElse : Prop :=
  ∀ (s t : State) (rest : List HostInput), s.params.layout.valid = true → s.pending = .reset :: rest →
    step s = .next t → t.ee = s.ee ∧ ReturnsNothing s t ∧ PerformsNothing s t ∧
      (∀ a, t.rom.read a = s.rom.read a) ∧ t.params = s.params ∧ t.inputs = s.inputs

/-- 70_reset_and_hazards.md R171 (the spec's own decisions D5, D13) and the reference values of 00_scope.md R10: the
state at the start of a run. Nothing is said of the free values (log 2, log 4). The last clause is the model's own
choice (log 6, log 9). -/
def Obligations.StartOfRunState : Prop :=
  State.reset.latch = 0#32 ∧ State.reset.fsm = .idle ∧ State.reset.cmd = 0#8 ∧ State.reset.unlk = false ∧
    State.reset.ee = Config.eepromLinesInit ∧
    State.reset.params.layout = { ctrl := 1, cmd := 3, data := 2 } ∧ State.reset.params.unlockBit = 0 ∧
    State.reset.params.soundMode = .verbatim ∧ (∀ a, State.reset.rom.read a = Config.romImage a) ∧
    State.reset.pending = [] ∧ State.reset.returned = [] ∧ State.reset.events = []

/-- 70_reset_and_hazards.md R172 (a derived rule): right after a reset every flash-window read returns 0 and changes
no state. That `EE` is as before the reset is the spec's own decision D13 (log 4). -/
def Obligations.AfterResetFlashReadsReturnZero : Prop :=
  ∀ (s : State) (w : Txn) (rest : List HostInput) (i : Instr), s.params.layout.valid = true →
    s.pending = .reset :: .access w :: rest → decode s.params.layout w = .ok i → i.isIo = false →
    i.isRead = true → ∃ t, runSteps 2 s = .next t ∧ Returns s t 0 ∧ PerformsNothing s t ∧
      t.latch = 0#32 ∧ t.fsm = .idle ∧ t.cmd = 0#8 ∧ t.unlk = false ∧ t.ee = s.ee ∧ t.pending = rest

/-- 60_exceptions.md R152 and 20_memory.md R44 (the spec's own decisions D6, D7, D27; log 10, log 11): the only
refusals. The first clause (a step with nothing issued changes nothing) is the model's own choice, log 7. -/
def Obligations.StepsAreRefusedNowhereElse : Prop :=
  (∀ s : State, s.params.layout.valid = true → s.pending = [] → step s = .next s) ∧
  ∀ (s : State) (r : Refusal), step s = .refused r ↔
    (s.params.layout.valid = false ∧ r = .invalidConfiguration) ∨
    (s.params.layout.valid = true ∧ (∃ rest, s.pending = .wide :: rest) ∧ r = .wideAccess) ∨
    (s.params.layout.valid = true ∧ ∃ w rest e, s.pending = .access w :: rest ∧
      decode s.params.layout w = .error e ∧ r = .reserved e)

/-! ## Sequences of accesses -/

/-- 40_flash_writes.md R92 (a derived rule, with the spec's own decision D3): where the nine words of `UNLOCKCMD c`
(30_encoding.md R73) lead from each state of the command machine. -/
def Obligations.UnlockCmdEndsWhereItsStartSays : Prop :=
  ∀ (s : State) (c : Byte) (rest : List HostInput), s.params.layout.valid = true →
    s.pending = accesses (asmUnlockCmd s.params.layout c) ++ rest →
    ∃ t, runSteps 9 s = .next t ∧ t.pending = rest ∧
      t.latch.extractLsb' 0 16 = 0x5555#16 ∧ t.latch.extractLsb' 16 16 = s.latch.extractLsb' 16 16 ∧
      t.unlk = s.unlk ∧ t.ee = s.ee ∧ ReturnsNothing s t ∧ PerformsNothing s t ∧
      (s.fsm ≠ .unlock2 → t.cmd = c ∧ t.fsm = .idle) ∧
      (s.fsm = .unlock2 → t.cmd = 0xAA#8 ∧ t.fsm = if c = 0xAA#8 then .unlock1 else .idle)

/-- 40_flash_writes.md R92 and 70_reset_and_hazards.md R184 (derived rules, with the spec's own decision D3): issuing
`UNLOCKCMD c` twice reaches IDLE with `CMD` = c from every state. -/
def Obligations.UnlockCmdTwiceRecovers : Prop :=
  ∀ (s : State) (c : Byte) (rest : List HostInput), s.params.layout.valid = true →
    s.pending = accesses (asmUnlockCmd s.params.layout c ++ asmUnlockCmd s.params.layout c) ++ rest →
    ∃ t, runSteps 18 s = .next t ∧ t.pending = rest ∧ t.fsm = .idle ∧ t.cmd = c

/-- 41_flash_reads.md R109 (a derived rule): in read-array mode, reading the even and then the odd port `n` times
returns the image as a byte stream from byte `2 * LATCH`, wrapping at its end. -/
def Obligations.SequentialReadsStreamTheImage : Prop :=
  ∀ (n : Nat) (s : State) (rest : List HostInput), s.params.layout.valid = true → s.cmd = 0xF0#8 → s.unlk = true →
    s.pending = accesses (readWords s.params.layout n) ++ rest →
    ∃ t, runSteps (2 * n) s = .next t ∧ t.pending = rest ∧
      t.returned = s.returned ++ (List.range (2 * n)).map (fun k => s.imageByte (2 * s.latch.toNat + k)) ∧
      t.latch.toNat = (s.latch.toNat + n) % 2 ^ 32 ∧
      t.fsm = s.fsm ∧ t.cmd = s.cmd ∧ t.unlk = s.unlk ∧ t.ee = s.ee ∧ PerformsNothing s t

/-- 70_reset_and_hazards.md R173 (a derived rule, with the spec's own decisions D1 to D3) and 20_memory.md R43: from
IDLE or UNLOCK1, `READARRAY`, `SETLATCH a`, `RDWORD` return the two bytes of word `a`, low byte first, and leave the
latch at the next word. `UNLOCK_BIT` is the reference value 0, since `READARRAY` writes 0x01. -/
def Obligations.BootSequenceReadsTheWord : Prop :=
  ∀ (s : State) (a : Latch) (rest : List HostInput), s.params.layout.valid = true → s.params.unlockBit = 0 →
    s.fsm ≠ .unlock2 →
    s.pending = accesses (asmReadArray s.params.layout ++ asmSetLatch s.params.layout a ++
      asmRdWord s.params.layout) ++ rest →
    ∃ t, runSteps 16 s = .next t ∧ t.pending = rest ∧
      t.returned = s.returned ++ [s.imageByte (2 * a.toNat), s.imageByte (2 * a.toNat + 1)] ∧
      t.latch = a + 1 ∧ t.fsm = .idle ∧ t.cmd = 0xF0#8 ∧ t.unlk = true ∧ t.ee = s.ee

/-- 70_reset_and_hazards.md R182 (a derived rule, with the spec's own decision D2, log 13): clearing the flag leaves
read-array mode at once and keeps command, machine state and cursor. Setting it again restores the state exactly. -/
def Obligations.ClearingTheFlagKeepsTheCommand : Prop :=
  ∀ (s : State) (d0 d1 : Byte), s.cmd = 0xF0#8 → s.unlk = true → d0.getLsbD s.params.unlockBit.val = false →
    d1.getLsbD s.params.unlockBit.val = true → ∃ t, exec (.flWctrl d0) s = .next t ∧
      t.cmd = 0xF0#8 ∧ t.latch = s.latch ∧ t.fsm = s.fsm ∧
      (∃ t', exec (.flRdhi false) t = .next t' ∧ Returns t t' 0 ∧ t'.latch = t.latch) ∧
      exec (.flWctrl d1) t = .next s

/-- 70_reset_and_hazards.md R180 (a derived rule): in read-array mode an ordinary odd read moves latch-low16 off the
unlock address, 0x5555 to 0x5556 and 0x2AAA to 0x2AAB, so that the command write that needs it is ignored: step 1 or
step 3 in the first clause, step 2 in the second. A peek leaves the latch alone. That a step-3 write at 0x5556 is ignored
is the spec's own decision D3 (log 14). -/
def Obligations.OddReadSpoilsTheUnlockAddress : Prop :=
  ∀ (s : State) (v : Byte), s.cmd = 0xF0#8 → s.unlk = true →
    (s.latch.extractLsb' 0 16 = 0x5555#16 → s.fsm = .idle ∨ s.fsm = .unlock2 →
      ∃ t, exec (.flRdhi false) s = .next t ∧ t.latch.extractLsb' 0 16 = 0x5556#16 ∧ t.fsm = s.fsm ∧
        exec (.flWcmd v) t = .next t) ∧
    (s.latch.extractLsb' 0 16 = 0x2AAA#16 → s.fsm = .unlock1 →
      ∃ t, exec (.flRdhi false) s = .next t ∧ t.latch.extractLsb' 0 16 = 0x2AAB#16 ∧ t.fsm = s.fsm ∧
        exec (.flWcmd v) t = .next t) ∧
    ∃ t, exec (.flRdhi true) s = .next t ∧ t.latch = s.latch

/-- 70_reset_and_hazards.md R183 (a derived rule): reading the odd port first gives byte `2w + 1`, and the even read
that follows gives byte `2w + 2`. -/
def Obligations.OddReadFirstSkipsToTheNextWord : Prop :=
  ∀ s : State, s.cmd = 0xF0#8 → s.unlk = true → ∃ t t', exec (.flRdhi false) s = .next t ∧
    exec (.flRdlo false) t = .next t' ∧
    t'.returned = s.returned ++ [s.imageByte (2 * s.latch.toNat + 1), s.imageByte (2 * s.latch.toNat + 2)]

/-! ## Encoding -/

/-- 30_encoding.md R61 to R66 and R71 (the spec's own decisions D1, D8): the decoder undoes the encoder on every
well-formed access, under every layout that 00_scope.md R10 allows. -/
def Obligations.DecodeUndoesEncode : Prop :=
  ∀ (L : Layout) (i : Instr), L.valid = true → i.wellFormed L = true → decode L (encode L i) = .ok i

/-- 30_encoding.md R67, R68 (the spec's own decisions D8, D27): a decoded access is well-formed, and its word is the
one it was read from, with `DATA` as 0 on a read. -/
def Obligations.EncodeUndoesDecode : Prop :=
  ∀ (L : Layout) (w : Txn) (i : Instr), L.valid = true → decode L w = .ok i →
    i.wellFormed L = true ∧ encode L i = if i.isRead then w &&& 0xFF00#16 else w

/-- 30_encoding.md R67 (the spec's own decision D27): a word selects exactly one row of the opcode map, the row of the
access it decodes to, or it is reserved and selects none. -/
def Obligations.OpcodeMapSelectsTheDecodedRow : Prop :=
  ∀ w : Txn, (opcodeRows.filter (fun r => r.selects w)).map (fun r => r.mnemonic) =
    match decode Layout.reference w with
    | .ok i => [i.mnemonic]
    | .error _ => []

/-- 30_encoding.md R67 (the spec's own decision D27): the reserved words, the first condition in table order naming the
refusal, under every layout. -/
def Obligations.ReservedWordsAreRefusedByName : Prop :=
  ∀ (L : Layout) (w : Txn),
    (decode L w = .error .reservedZ ↔ w.getLsbD 12 = true) ∧
    (decode L w = .error .outsideFlashWindow ↔
      w.getLsbD 12 = false ∧ w.getLsbD 14 = false ∧ w.getLsbD 11 = true) ∧
    (decode L w = .error .peekOnWrite ↔
      w.getLsbD 12 = false ∧ ¬(w.getLsbD 14 = false ∧ w.getLsbD 11 = true) ∧
        w.getLsbD 15 = true ∧ w.getLsbD 13 = true)

/-- 30_encoding.md R68 (the spec's own decision D8): on a read `DATA` is ignored. -/
def Obligations.ReadsIgnoreData : Prop :=
  ∀ (L : Layout) (w w' : Txn), w.getLsbD 15 = false → w'.extractLsb' 8 8 = w.extractLsb' 8 8 →
    decode L w' = decode L w

/-- 30_encoding.md R71 (the spec's own decision D1): the flash decoders of every layout that 00_scope.md R10 allows. -/
def Obligations.FlashDecodersFollowTheLayout : Prop :=
  ∀ (L : Layout) (d : Byte) (n : Bool), L.valid = true →
    decode L (flashWriteWord 0 d) = .ok (.flWlane0 d) ∧ decode L (flashWriteWord 2 d) = .ok (.flWlane1 d) ∧
    decode L (flashWriteWord 4 d) = .ok (.flWlane2 d) ∧ decode L (flashWriteWord 6 d) = .ok (.flWlane3 d) ∧
    decode L (flashWriteWord L.ctrl d) = .ok (.flWctrl d) ∧ decode L (flashWriteWord L.cmd d) = .ok (.flWcmd d) ∧
    (∀ off : BitVec 3, off.getLsbD 0 = true → off ≠ L.ctrl → off ≠ L.cmd →
      decode L (flashWriteWord off d) = .ok (.flWnop off d)) ∧
    decode L (flashReadWord L.data n) = .ok (.flRdlo n) ∧ decode L (flashReadWord (L.data + 1) n) = .ok (.flRdhi n)

/-- 30_encoding.md section 3: one word of each family, written out from its row, decodes to its access. -/
def Obligations.SampleWordsDecode : Prop :=
  decode Layout.reference 0b1000011010101011#16 = .ok (.flWlane3 0xAB) ∧
  decode Layout.reference 0b1000001111110000#16 = .ok (.flWcmd 0xF0) ∧
  decode Layout.reference 0b0010001100000000#16 = .ok (.flRdhi true) ∧
  decode Layout.reference 0b0000011100000000#16 = .ok (.flRzero47 7 false) ∧
  decode Layout.reference 0b1100001010011100#16 = .ok (.ioSndw 2 0x9C) ∧
  decode Layout.reference 0b1100110011111001#16 = .ok (.ioWee 0xF9) ∧
  decode Layout.reference 0b0110100100000000#16 = .ok (.ioRsys true) ∧
  decode Layout.reference 0b0100111000000000#16 = .ok (.ioRee false)

/-! ## The invariant -/

/-- The invariant of Safety.lean (00_scope.md R10, 20_memory.md R40, R41, R49; the canonical form is the model's own,
log 1): every step keeps it. -/
def Obligations.StepKeepsTheInvariant : Prop :=
  ∀ s t : State, s.inv → step s = .next t → t.inv

/-- The invariant holds at the start of a run. -/
def Obligations.StartOfRunMeetsTheInvariant : Prop := State.reset.inv
end

