-- ==== Sys2Proof/Laws/Decode.lean ====
section
/-! SUPPORT. The fields of an assembled word, and what each of the four decoders reads from one. -/

namespace Sys2Proof

variable (w s n : Bool) (off : BitVec 4) (data : Byte)

@[simp] theorem mkTxn_isWrite : (mkTxn w s n off data).isWrite = w := by
  cases w <;> (simp only [mkTxn, Txn.isWrite, BitVec.getLsbD_append]; simp)

@[simp] theorem mkTxn_isIo : (mkTxn w s n off data).isIo = s := by
  cases s <;> (simp only [mkTxn, Txn.isIo, BitVec.getLsbD_append]; simp)

@[simp] theorem mkTxn_peek : (mkTxn w s n off data).peek = n := by
  cases n <;> (simp only [mkTxn, Txn.peek, BitVec.getLsbD_append]; simp)

@[simp] theorem mkTxn_reservedBit : (mkTxn w s n off data).reservedBit = false := by
  simp only [mkTxn, Txn.reservedBit, BitVec.getLsbD_append]; simp

@[simp] theorem mkTxn_off : (mkTxn w s n off data).off = off := by
  ext i hi
  simp only [Txn.off, mkTxn, BitVec.getElem_extractLsb', BitVec.getLsbD_append]
  rw [if_neg (by omega), if_pos (by omega)]
  simp [BitVec.getLsbD_eq_getElem hi]

@[simp] theorem mkTxn_data : (mkTxn w s n off data).data = data := by
  ext i hi
  simp only [Txn.data, mkTxn, BitVec.getElem_extractLsb', BitVec.getLsbD_append]
  rw [if_pos (by omega)]
  simp [BitVec.getLsbD_eq_getElem hi]

/-- The flash offset of a word is the low three bits of its offset. -/
theorem Txn.flashOff_eq (t : Txn) : t.flashOff = t.off.extractLsb' 0 3 := by
  ext i hi
  simp [Txn.flashOff, Txn.off, show i < 4 by omega]

theorem flashOff_low (f : BitVec 3) : (0#1 ++ f).extractLsb' 0 3 = f := by
  revert f; decide

theorem flashOff_high (f : BitVec 3) : (0#1 ++ f)[3] = false := by
  revert f; decide

/-- A flash write decodes by its offset and byte. -/
theorem decode_flashWriteWord (L : Layout) (f : BitVec 3) :
    decode L (flashWriteWord f data) = .ok (decodeFlashWrite L f data) := by
  simp [decode, Txn.reserved, flashWriteWord, Txn.flashOff_eq, flashOff_low, flashOff_high]

/-- A flash read decodes by its offset and peek bit. -/
theorem decode_flashReadWord (L : Layout) (f : BitVec 3) :
    decode L (flashReadWord f n) = .ok (decodeFlashRead L f n) := by
  simp [decode, Txn.reserved, flashReadWord, Txn.flashOff_eq, flashOff_low, flashOff_high]

/-- An I/O write decodes by its offset and byte. -/
theorem decode_ioWriteWord (L : Layout) : decode L (ioWriteWord off data) = .ok (decodeIoWrite off data) := by
  simp [decode, Txn.reserved, ioWriteWord]

/-- An I/O read decodes by its offset and peek bit. -/
theorem decode_ioReadWord (L : Layout) : decode L (ioReadWord off n) = .ok (decodeIoRead off n) := by
  simp [decode, Txn.reserved, ioReadWord]

/-- The constraints on a layout, one by one (00_scope.md R10). -/
theorem Layout.valid_iff {L : Layout} : L.valid = true ↔
    L.ctrl.getLsbD 0 = true ∧ L.cmd.getLsbD 0 = true ∧ L.ctrl ≠ L.cmd ∧ L.data.getLsbD 0 = false := by
  simp [Layout.valid, and_assoc]

theorem Layout.reference_valid : Layout.reference.valid = true := by decide

end Sys2Proof
end

