-- ==== Sys2Proof/Laws/State.lean ====
section
/-! SUPPORT. One lemma for each field of the state under each update, so that no later proof unfolds a record update. -/

namespace Sys2Proof.Machine

variable (s : State)

/-! `setLatch` -/

@[simp] theorem setLatch_latch (l : Latch) : (s.setLatch l).latch = l := rfl
@[simp] theorem setLatch_fsm (l : Latch) : (s.setLatch l).fsm = s.fsm := rfl
@[simp] theorem setLatch_cmd (l : Latch) : (s.setLatch l).cmd = s.cmd := rfl
@[simp] theorem setLatch_unlk (l : Latch) : (s.setLatch l).unlk = s.unlk := rfl
@[simp] theorem setLatch_ee (l : Latch) : (s.setLatch l).ee = s.ee := rfl
@[simp] theorem setLatch_rom (l : Latch) : (s.setLatch l).rom = s.rom := rfl
@[simp] theorem setLatch_params (l : Latch) : (s.setLatch l).params = s.params := rfl
@[simp] theorem setLatch_pending (l : Latch) : (s.setLatch l).pending = s.pending := rfl
@[simp] theorem setLatch_pos (l : Latch) : (s.setLatch l).pos = s.pos := rfl
@[simp] theorem setLatch_inputs (l : Latch) : (s.setLatch l).inputs = s.inputs := rfl
@[simp] theorem setLatch_returned (l : Latch) : (s.setLatch l).returned = s.returned := rfl
@[simp] theorem setLatch_events (l : Latch) : (s.setLatch l).events = s.events := rfl

/-! `setFsm` -/

@[simp] theorem setFsm_latch (f : Fsm) : (s.setFsm f).latch = s.latch := rfl
@[simp] theorem setFsm_fsm (f : Fsm) : (s.setFsm f).fsm = f := rfl
@[simp] theorem setFsm_cmd (f : Fsm) : (s.setFsm f).cmd = s.cmd := rfl
@[simp] theorem setFsm_unlk (f : Fsm) : (s.setFsm f).unlk = s.unlk := rfl
@[simp] theorem setFsm_ee (f : Fsm) : (s.setFsm f).ee = s.ee := rfl
@[simp] theorem setFsm_rom (f : Fsm) : (s.setFsm f).rom = s.rom := rfl
@[simp] theorem setFsm_params (f : Fsm) : (s.setFsm f).params = s.params := rfl
@[simp] theorem setFsm_pending (f : Fsm) : (s.setFsm f).pending = s.pending := rfl
@[simp] theorem setFsm_pos (f : Fsm) : (s.setFsm f).pos = s.pos := rfl
@[simp] theorem setFsm_inputs (f : Fsm) : (s.setFsm f).inputs = s.inputs := rfl
@[simp] theorem setFsm_returned (f : Fsm) : (s.setFsm f).returned = s.returned := rfl
@[simp] theorem setFsm_events (f : Fsm) : (s.setFsm f).events = s.events := rfl

/-! `setCmd` -/

@[simp] theorem setCmd_latch (c : Byte) : (s.setCmd c).latch = s.latch := rfl
@[simp] theorem setCmd_fsm (c : Byte) : (s.setCmd c).fsm = s.fsm := rfl
@[simp] theorem setCmd_cmd (c : Byte) : (s.setCmd c).cmd = c := rfl
@[simp] theorem setCmd_unlk (c : Byte) : (s.setCmd c).unlk = s.unlk := rfl
@[simp] theorem setCmd_ee (c : Byte) : (s.setCmd c).ee = s.ee := rfl
@[simp] theorem setCmd_rom (c : Byte) : (s.setCmd c).rom = s.rom := rfl
@[simp] theorem setCmd_params (c : Byte) : (s.setCmd c).params = s.params := rfl
@[simp] theorem setCmd_pending (c : Byte) : (s.setCmd c).pending = s.pending := rfl
@[simp] theorem setCmd_pos (c : Byte) : (s.setCmd c).pos = s.pos := rfl
@[simp] theorem setCmd_inputs (c : Byte) : (s.setCmd c).inputs = s.inputs := rfl
@[simp] theorem setCmd_returned (c : Byte) : (s.setCmd c).returned = s.returned := rfl
@[simp] theorem setCmd_events (c : Byte) : (s.setCmd c).events = s.events := rfl

/-! `setUnlk` -/

@[simp] theorem setUnlk_latch (u : Bool) : (s.setUnlk u).latch = s.latch := rfl
@[simp] theorem setUnlk_fsm (u : Bool) : (s.setUnlk u).fsm = s.fsm := rfl
@[simp] theorem setUnlk_cmd (u : Bool) : (s.setUnlk u).cmd = s.cmd := rfl
@[simp] theorem setUnlk_unlk (u : Bool) : (s.setUnlk u).unlk = u := rfl
@[simp] theorem setUnlk_ee (u : Bool) : (s.setUnlk u).ee = s.ee := rfl
@[simp] theorem setUnlk_rom (u : Bool) : (s.setUnlk u).rom = s.rom := rfl
@[simp] theorem setUnlk_params (u : Bool) : (s.setUnlk u).params = s.params := rfl
@[simp] theorem setUnlk_pending (u : Bool) : (s.setUnlk u).pending = s.pending := rfl
@[simp] theorem setUnlk_pos (u : Bool) : (s.setUnlk u).pos = s.pos := rfl
@[simp] theorem setUnlk_inputs (u : Bool) : (s.setUnlk u).inputs = s.inputs := rfl
@[simp] theorem setUnlk_returned (u : Bool) : (s.setUnlk u).returned = s.returned := rfl
@[simp] theorem setUnlk_events (u : Bool) : (s.setUnlk u).events = s.events := rfl

/-! `setEe` -/

@[simp] theorem setEe_latch (e : EeLines) : (s.setEe e).latch = s.latch := rfl
@[simp] theorem setEe_fsm (e : EeLines) : (s.setEe e).fsm = s.fsm := rfl
@[simp] theorem setEe_cmd (e : EeLines) : (s.setEe e).cmd = s.cmd := rfl
@[simp] theorem setEe_unlk (e : EeLines) : (s.setEe e).unlk = s.unlk := rfl
@[simp] theorem setEe_ee (e : EeLines) : (s.setEe e).ee = e := rfl
@[simp] theorem setEe_rom (e : EeLines) : (s.setEe e).rom = s.rom := rfl
@[simp] theorem setEe_params (e : EeLines) : (s.setEe e).params = s.params := rfl
@[simp] theorem setEe_pending (e : EeLines) : (s.setEe e).pending = s.pending := rfl
@[simp] theorem setEe_pos (e : EeLines) : (s.setEe e).pos = s.pos := rfl
@[simp] theorem setEe_inputs (e : EeLines) : (s.setEe e).inputs = s.inputs := rfl
@[simp] theorem setEe_returned (e : EeLines) : (s.setEe e).returned = s.returned := rfl
@[simp] theorem setEe_events (e : EeLines) : (s.setEe e).events = s.events := rfl

/-! `ret` -/

@[simp] theorem ret_latch (b : Byte) : (s.ret b).latch = s.latch := rfl
@[simp] theorem ret_fsm (b : Byte) : (s.ret b).fsm = s.fsm := rfl
@[simp] theorem ret_cmd (b : Byte) : (s.ret b).cmd = s.cmd := rfl
@[simp] theorem ret_unlk (b : Byte) : (s.ret b).unlk = s.unlk := rfl
@[simp] theorem ret_ee (b : Byte) : (s.ret b).ee = s.ee := rfl
@[simp] theorem ret_rom (b : Byte) : (s.ret b).rom = s.rom := rfl
@[simp] theorem ret_params (b : Byte) : (s.ret b).params = s.params := rfl
@[simp] theorem ret_pending (b : Byte) : (s.ret b).pending = s.pending := rfl
@[simp] theorem ret_pos (b : Byte) : (s.ret b).pos = s.pos := rfl
@[simp] theorem ret_inputs (b : Byte) : (s.ret b).inputs = s.inputs := rfl
@[simp] theorem ret_returned (b : Byte) : (s.ret b).returned = s.returned ++ [b] := rfl
@[simp] theorem ret_events (b : Byte) : (s.ret b).events = s.events := rfl

/-! `emit` -/

@[simp] theorem emit_latch (e : Event) : (s.emit e).latch = s.latch := rfl
@[simp] theorem emit_fsm (e : Event) : (s.emit e).fsm = s.fsm := rfl
@[simp] theorem emit_cmd (e : Event) : (s.emit e).cmd = s.cmd := rfl
@[simp] theorem emit_unlk (e : Event) : (s.emit e).unlk = s.unlk := rfl
@[simp] theorem emit_ee (e : Event) : (s.emit e).ee = s.ee := rfl
@[simp] theorem emit_rom (e : Event) : (s.emit e).rom = s.rom := rfl
@[simp] theorem emit_params (e : Event) : (s.emit e).params = s.params := rfl
@[simp] theorem emit_pending (e : Event) : (s.emit e).pending = s.pending := rfl
@[simp] theorem emit_pos (e : Event) : (s.emit e).pos = s.pos := rfl
@[simp] theorem emit_inputs (e : Event) : (s.emit e).inputs = s.inputs := rfl
@[simp] theorem emit_returned (e : Event) : (s.emit e).returned = s.returned := rfl
@[simp] theorem emit_events (e : Event) : (s.emit e).events = s.events ++ [e] := rfl

/-! `take` -/

@[simp] theorem take_latch (r : List HostInput) : (s.take r).latch = s.latch := rfl
@[simp] theorem take_fsm (r : List HostInput) : (s.take r).fsm = s.fsm := rfl
@[simp] theorem take_cmd (r : List HostInput) : (s.take r).cmd = s.cmd := rfl
@[simp] theorem take_unlk (r : List HostInput) : (s.take r).unlk = s.unlk := rfl
@[simp] theorem take_ee (r : List HostInput) : (s.take r).ee = s.ee := rfl
@[simp] theorem take_rom (r : List HostInput) : (s.take r).rom = s.rom := rfl
@[simp] theorem take_params (r : List HostInput) : (s.take r).params = s.params := rfl
@[simp] theorem take_pending (r : List HostInput) : (s.take r).pending = r := rfl
@[simp] theorem take_pos (r : List HostInput) : (s.take r).pos = s.pos + 1 := rfl
@[simp] theorem take_inputs (r : List HostInput) : (s.take r).inputs = s.inputs := rfl
@[simp] theorem take_returned (r : List HostInput) : (s.take r).returned = s.returned := rfl
@[simp] theorem take_events (r : List HostInput) : (s.take r).events = s.events := rfl

/-! `resetBlock` -/

@[simp] theorem resetBlock_latch : (s.resetBlock).latch = 0 := rfl
@[simp] theorem resetBlock_fsm : (s.resetBlock).fsm = .idle := rfl
@[simp] theorem resetBlock_cmd : (s.resetBlock).cmd = 0 := rfl
@[simp] theorem resetBlock_unlk : (s.resetBlock).unlk = false := rfl
@[simp] theorem resetBlock_ee : (s.resetBlock).ee = s.ee := rfl
@[simp] theorem resetBlock_rom : (s.resetBlock).rom = s.rom := rfl
@[simp] theorem resetBlock_params : (s.resetBlock).params = s.params := rfl
@[simp] theorem resetBlock_pending : (s.resetBlock).pending = s.pending := rfl
@[simp] theorem resetBlock_pos : (s.resetBlock).pos = s.pos := rfl
@[simp] theorem resetBlock_inputs : (s.resetBlock).inputs = s.inputs := rfl
@[simp] theorem resetBlock_returned : (s.resetBlock).returned = s.returned := rfl
@[simp] theorem resetBlock_events : (s.resetBlock).events = s.events := rfl

/-! `issue` -/

@[simp] theorem issue_latch (w : Txn) : (s.issue w).latch = s.latch := rfl
@[simp] theorem issue_fsm (w : Txn) : (s.issue w).fsm = s.fsm := rfl
@[simp] theorem issue_cmd (w : Txn) : (s.issue w).cmd = s.cmd := rfl
@[simp] theorem issue_unlk (w : Txn) : (s.issue w).unlk = s.unlk := rfl
@[simp] theorem issue_ee (w : Txn) : (s.issue w).ee = s.ee := rfl
@[simp] theorem issue_rom (w : Txn) : (s.issue w).rom = s.rom := rfl
@[simp] theorem issue_params (w : Txn) : (s.issue w).params = s.params := rfl
@[simp] theorem issue_pending (w : Txn) : (s.issue w).pending = .access w :: s.pending := rfl
@[simp] theorem issue_pos (w : Txn) : (s.issue w).pos = s.pos := rfl
@[simp] theorem issue_inputs (w : Txn) : (s.issue w).inputs = s.inputs := rfl
@[simp] theorem issue_returned (w : Txn) : (s.issue w).returned = s.returned := rfl
@[simp] theorem issue_events (w : Txn) : (s.issue w).events = s.events := rfl

end Sys2Proof.Machine
end

