-- ==== Sys2Proof/Laws/Ops.lean ====
section
/-! SUPPORT. What each shared operation does, said once: each is a chain of the small updates of Laws/State.lean, so
its equation here and the field lemmas there say the value of every field. -/

namespace Sys2Proof.Machine

variable (s : State)

/-- The read-array test in the terms of 41_flash_reads.md R100. -/
theorem readArray_iff : s.readArray = true ↔ s.cmd = 0xF0#8 ∧ s.unlk = true := by
  simp [State.readArray]

/-- The read path in read-array mode. -/
theorem romReadPath_on (h : s.readArray = true) (p se : Bool) :
    s.romReadPath p se = (if p && se then s.setLatch (s.latch + 1) else s).ret (s.romByte p) := by
  simp [State.romReadPath, h]

/-- The read path outside read-array mode. -/
theorem romReadPath_off (h : s.readArray = false) (p se : Bool) : s.romReadPath p se = s.ret 0 := by
  simp [State.romReadPath, h]

/-- A sound read: a query of the index that the offset reaches, or 0 where it reaches none. -/
theorem soundRead_eq (off : BitVec 2) (n : Bool) :
    s.soundRead off n = match soundIndex s.params.soundMode off with
      | some i => (s.emit (.query (.sndRead i n))).ret (s.draw (.sndRead i n))
      | none => s.ret 0 := rfl

/-- A sound write: one event at the index that the offset reaches, or nothing where it reaches none. -/
theorem soundWrite_eq (off : BitVec 2) (v : Byte) :
    s.soundWrite off v = match soundIndex s.params.soundMode off with
      | some i => s.emit (.sndWrite i v)
      | none => s := rfl

/-- An answer listed for the current access is the draw. -/
theorem draw_of_answer {q : Query} {b : Byte} (h : findAnswer s.inputs s.pos q = some b) : s.draw q = b := by
  simp [State.draw, h]

/-- With no answer listed the draw is a free value. -/
theorem draw_free {q : Query} (h : findAnswer s.inputs s.pos q = none) : s.draw q = Config.freeDraw q s.pos := by
  simp [State.draw, h]

/-! The draw looks only at the position and the known answers. -/

theorem draw_congr {s t : State} (hp : t.pos = s.pos) (hi : t.inputs = s.inputs) (q : Query) : t.draw q = s.draw q := by
  simp [State.draw, hp, hi]

/-- The byte that the read path selects depends on the latch, the image and the parameters only. -/
theorem romByte_congr {s t : State} (hl : t.latch = s.latch) (hr : t.rom = s.rom) (hp : t.params = s.params)
    (p : Bool) : t.romByte p = s.romByte p := by
  simp [State.romByte, hl, hr, hp]

end Sys2Proof.Machine
end

