-- ==== Sys2Proof/Laws/Exec.lean ====
section
/-! SUPPORT. One equation for each access: its arm of `exec`, unfolded once. -/

namespace Sys2Proof.Machine

variable (s : State)

@[simp] theorem exec_flWlane0 (data : Byte) :
    exec (.flWlane0 data) s = .next (s.setLatch (setLane0 s.latch data)) := rfl

@[simp] theorem exec_flWctrl (data : Byte) :
    exec (.flWctrl data) s = .next (s.setUnlk (unlockFlagOf s.params data)) := rfl

@[simp] theorem exec_flWlane1 (data : Byte) :
    exec (.flWlane1 data) s = .next (s.setLatch (setLane1 s.latch data)) := rfl

@[simp] theorem exec_flWcmd (data : Byte) :
    exec (.flWcmd data) s = .next (s.commandWrite data) := rfl

@[simp] theorem exec_flWlane2 (data : Byte) :
    exec (.flWlane2 data) s = .next (s.setLatch (setLane2 s.latch data)) := rfl

@[simp] theorem exec_flWnop (off : BitVec 3) (data : Byte) :
    exec (.flWnop off data) s = .next s := rfl

@[simp] theorem exec_flWlane3 (data : Byte) :
    exec (.flWlane3 data) s = .next (s.setLatch (setLane3 s.latch data)) := rfl

@[simp] theorem exec_flRzero01 (off : BitVec 3) (n : Bool) :
    exec (.flRzero01 off n) s = .next (s.ret 0) := rfl

@[simp] theorem exec_flRdlo (n : Bool) :
    exec (.flRdlo n) s = .next (s.romReadPath false (sideEffecting n)) := rfl

@[simp] theorem exec_flRdhi (n : Bool) :
    exec (.flRdhi n) s = .next (s.romReadPath true (sideEffecting n)) := rfl

@[simp] theorem exec_flRzero47 (off : BitVec 3) (n : Bool) :
    exec (.flRzero47 off n) s = .next (s.ret 0) := rfl

@[simp] theorem exec_ioSndw (i : BitVec 2) (data : Byte) :
    exec (.ioSndw i data) s = .next (s.soundWrite i data) := rfl

@[simp] theorem exec_ioWnop47 (o : BitVec 2) (data : Byte) :
    exec (.ioWnop47 o data) s = .next s := rfl

@[simp] theorem exec_ioWnop8b (o : BitVec 2) (data : Byte) :
    exec (.ioWnop8b o data) s = .next s := rfl

@[simp] theorem exec_ioWee (data : Byte) :
    exec (.ioWee data) s = .next (s.driveEe (eeLinesOf data)) := rfl

@[simp] theorem exec_ioWnopd (data : Byte) :
    exec (.ioWnopd data) s = .next s := rfl

@[simp] theorem exec_ioWnopef (o : BitVec 1) (data : Byte) :
    exec (.ioWnopef o data) s = .next s := rfl

@[simp] theorem exec_ioSndr (i : BitVec 2) (n : Bool) :
    exec (.ioSndr i n) s = .next (s.soundRead i n) := rfl

@[simp] theorem exec_ioRzero47 (o : BitVec 2) (n : Bool) :
    exec (.ioRzero47 o n) s = .next (s.ret 0) := rfl

@[simp] theorem exec_ioRin0 (n : Bool) :
    exec (.ioRin0 n) s = .next (s.queryByte (.sample .in0)) := rfl

@[simp] theorem exec_ioRsys (n : Bool) :
    exec (.ioRsys n) s = .next (s.queryByte (.sample .system)) := rfl

@[simp] theorem exec_ioRin1 (n : Bool) :
    exec (.ioRin1 n) s = .next (s.queryByte (.sample .in1)) := rfl

@[simp] theorem exec_ioRin2 (n : Bool) :
    exec (.ioRin2 n) s = .next (s.queryByte (.sample .in2)) := rfl

@[simp] theorem exec_ioRzerocd (o : BitVec 1) (n : Bool) :
    exec (.ioRzerocd o n) s = .next (s.ret 0) := rfl

@[simp] theorem exec_ioRee (n : Bool) :
    exec (.ioRee n) s = .next s.readEeDataOut := rfl

@[simp] theorem exec_ioRzerof (n : Bool) :
    exec (.ioRzerof n) s = .next (s.ret 0) := rfl

end Sys2Proof.Machine
end

