-- ==== Sys2Proof/Laws/Memory.lean ====
section
/-! SUPPORT. The laws of the ROM image as a list of cells: every operation keeps the canonical form, and a byte read
after a load is the byte loaded there or the byte read before. -/

namespace Sys2Proof.Machine

@[simp] theorem Memory.read_nil (i : Nat) : Memory.read [] i = Config.romImage i := rfl

theorem Memory.read_cons (j : Nat) (b : Byte) (m : Memory) (i : Nat) :
    Memory.read ((j, b) :: m) i = if i = j then b else m.read i := rfl

theorem Memory.wf_nil : Memory.wf [] = true := rfl

theorem Memory.wf_cons {i : Nat} {b : Byte} {m : Memory} :
    Memory.wf ((i, b) :: m) = true ↔ b ≠ Config.romImage i ∧ (∀ c ∈ m, i < c.1) ∧ m.wf = true := by
  simp [Memory.wf, and_assoc]

/-- An index below every listed one is not listed. -/
theorem Memory.read_below {m : Memory} {i : Nat} (h : ∀ c ∈ m, i < c.1) : m.read i = Config.romImage i := by
  induction m with
  | nil => rfl
  | cons c m ih =>
    obtain ⟨j, b⟩ := c
    have hj : i < j := h (j, b) (by simp)
    rw [Memory.read_cons, if_neg (by omega)]
    exact ih fun c hc => h c (by simp [hc])

/-- A loaded image lists no index but the loaded one and those listed before. -/
theorem Memory.mem_load {m : Memory} {i : Nat} {b : Byte} {c : Host.Cell} (h : c ∈ m.load i b) : c.1 = i ∨ c ∈ m := by
  induction m with
  | nil =>
    simp only [Memory.load] at h
    split at h <;> simp_all
  | cons d m ih =>
    obtain ⟨j, e⟩ := d
    simp only [Memory.load] at h
    split at h
    · split at h
      · exact .inr h
      · rcases List.mem_cons.1 h with rfl | h
        · exact .inl rfl
        · exact .inr h
    · split at h
      · split at h
        · exact .inr (by simp [h])
        · rcases List.mem_cons.1 h with rfl | h
          · exact .inl rfl
          · exact .inr (by simp [h])
      · rcases List.mem_cons.1 h with h | h
        · simp [h]
        · rcases ih h with h | h <;> simp [h]

/-- Loading a byte keeps the canonical form. -/
theorem Memory.load_wf {m : Memory} (i : Nat) (b : Byte) (h : m.wf = true) : (m.load i b).wf = true := by
  induction m with
  | nil =>
    simp only [Memory.load]
    split
    · rfl
    · simp_all [Memory.wf]
  | cons d m ih =>
    obtain ⟨j, e⟩ := d
    obtain ⟨he, hm, hw⟩ := Memory.wf_cons.1 h
    simp only [Memory.load]
    split
    · rename_i hij
      split
      · exact h
      · refine Memory.wf_cons.2 ⟨by assumption, fun c hc => ?_, h⟩
        rcases List.mem_cons.1 hc with rfl | hc
        · exact hij
        · exact lt_trans hij (hm c hc)
    · split
      · rename_i hij
        split
        · exact hw
        · exact Memory.wf_cons.2 ⟨by assumption, fun c hc => hij ▸ hm c hc, hw⟩
      · refine Memory.wf_cons.2 ⟨he, fun c hc => ?_, ih hw⟩
        rcases Memory.mem_load hc with hc | hc
        · omega
        · exact hm c hc

/-- What an image reads as after a byte is loaded: that byte at its index, as before elsewhere. -/
theorem Memory.read_load {m : Memory} (i : Nat) (b : Byte) (k : Nat) (h : m.wf = true) :
    (m.load i b).read k = if k = i then b else m.read k := by
  induction m with
  | nil =>
    simp only [Memory.load]
    split <;> simp_all [Memory.read_cons]
  | cons d m ih =>
    obtain ⟨j, e⟩ := d
    obtain ⟨-, hm, hw⟩ := Memory.wf_cons.1 h
    simp only [Memory.load]
    split
    · rename_i hij
      split
      · rename_i hb
        split
        · rename_i hk
          subst hk hb
          rw [Memory.read_cons, if_neg (by omega)]
          exact Memory.read_below fun c hc => lt_trans hij (hm c hc)
        · rfl
      · rw [Memory.read_cons]
    · split
      · rename_i hij
        subst hij
        split
        · rename_i hb
          rw [Memory.read_cons]
          split
          · rename_i hk
            subst hk hb
            exact Memory.read_below hm
          · rfl
        · rw [Memory.read_cons, Memory.read_cons]
          split <;> rfl
      · rw [Memory.read_cons, Memory.read_cons, ih hw]
        split
        · split <;> first | rfl | omega
        · rfl

end Sys2Proof.Machine
end

