-- ==== Sys2Proof/Laws/PerInstr.lean ====
section
/-! SUPPORT. Statements made for all accesses, one lemma for each constructor: the round trip of the encoder and the
decoder. -/

namespace Sys2Proof.Laws.RoundTrip

/-- Decoding the word of a well-formed access gives the access back, under every layout that 00_scope.md R10 allows. -/
def Statement (i : Instr) : Prop :=
  ∀ L : Layout, L.valid = true → i.wellFormed L = true → decode L (encode L i) = .ok i

theorem flWlane0 (data : Byte) : Statement (.flWlane0 data) := by
  intro L _ _
  simp [encode, decode_flashWriteWord, decodeFlashWrite, laneIndex]

theorem flWctrl (data : Byte) : Statement (.flWctrl data) := by
  intro L hv _
  obtain ⟨h, -, -, -⟩ := Layout.valid_iff.1 hv
  simp only [encode, decode_flashWriteWord, decodeFlashWrite, h, if_true]

theorem flWlane1 (data : Byte) : Statement (.flWlane1 data) := by
  intro L _ _
  simp [encode, decode_flashWriteWord, decodeFlashWrite, laneIndex]

theorem flWcmd (data : Byte) : Statement (.flWcmd data) := by
  intro L hv _
  obtain ⟨-, h, hne, -⟩ := Layout.valid_iff.1 hv
  simp only [encode, decode_flashWriteWord, decodeFlashWrite, h, if_true, if_neg (Ne.symm hne)]

theorem flWlane2 (data : Byte) : Statement (.flWlane2 data) := by
  intro L _ _
  simp [encode, decode_flashWriteWord, decodeFlashWrite, laneIndex]

theorem flWnop (off : BitVec 3) (data : Byte) : Statement (.flWnop off data) := by
  intro L _ hw
  simp only [Instr.wellFormed, Layout.wnopOffset, Bool.and_eq_true, bne_iff_ne, ne_eq] at hw
  obtain ⟨⟨h, h1⟩, h2⟩ := hw
  simp only [encode, decode_flashWriteWord, decodeFlashWrite, h, h1, h2, if_true, if_false]

theorem flWlane3 (data : Byte) : Statement (.flWlane3 data) := by
  intro L _ _
  simp [encode, decode_flashWriteWord, decodeFlashWrite, laneIndex]

theorem flRzero01 (off : BitVec 3) (n : Bool) : Statement (.flRzero01 off n) := by
  intro L _ hw
  simp only [Instr.wellFormed, Layout.rzero01Offset, Layout.isDataPort, Bool.and_eq_true, Bool.not_eq_true',
    Bool.or_eq_false_iff, beq_eq_false_iff_ne, ne_eq] at hw
  obtain ⟨h, h1, h2⟩ := hw
  simp only [encode, decode_flashReadWord, decodeFlashRead, h, h1, h2, if_false, Bool.false_eq_true]

theorem flRdlo (n : Bool) : Statement (.flRdlo n) := by
  intro L _ _
  simp [encode, decode_flashReadWord, decodeFlashRead]

theorem flRdhi (n : Bool) : Statement (.flRdhi n) := by
  intro L _ _
  simp [encode, decode_flashReadWord, decodeFlashRead]

theorem flRzero47 (off : BitVec 3) (n : Bool) : Statement (.flRzero47 off n) := by
  intro L _ hw
  simp only [Instr.wellFormed, Layout.rzero47Offset, Layout.isDataPort, Bool.and_eq_true, Bool.not_eq_true',
    Bool.or_eq_false_iff, beq_eq_false_iff_ne, ne_eq] at hw
  obtain ⟨h, h1, h2⟩ := hw
  simp only [encode, decode_flashReadWord, decodeFlashRead, h, h1, h2, if_false, if_true]

theorem ioSndw (i : BitVec 2) (data : Byte) : Statement (.ioSndw i data) := by
  intro L _ _
  have h : ∀ i : BitVec 2, 0b00#2 ++ i ≤ 0x3#4 ∧
      (0b00#2 ++ i).extractLsb' 0 2 = i := by decide
  obtain ⟨h1, hx⟩ := h i
  simp only [encode, decode_ioWriteWord, decodeIoWrite]
  rw [if_pos h1, hx]

theorem ioWnop47 (o : BitVec 2) (data : Byte) : Statement (.ioWnop47 o data) := by
  intro L _ _
  have h : ∀ o : BitVec 2, ¬(0b01#2 ++ o ≤ 0x3#4) ∧ 0b01#2 ++ o ≤ 0x7#4 ∧
      (0b01#2 ++ o).extractLsb' 0 2 = o := by decide
  obtain ⟨h1, h2, hx⟩ := h o
  simp only [encode, decode_ioWriteWord, decodeIoWrite]
  rw [if_neg h1, if_pos h2, hx]

theorem ioWnop8b (o : BitVec 2) (data : Byte) : Statement (.ioWnop8b o data) := by
  intro L _ _
  have h : ∀ o : BitVec 2, ¬(0b10#2 ++ o ≤ 0x3#4) ∧ ¬(0b10#2 ++ o ≤ 0x7#4) ∧ 0b10#2 ++ o ≤ 0xB#4 ∧
      (0b10#2 ++ o).extractLsb' 0 2 = o := by decide
  obtain ⟨h1, h2, h3, hx⟩ := h o
  simp only [encode, decode_ioWriteWord, decodeIoWrite]
  rw [if_neg h1, if_neg h2, if_pos h3, hx]

theorem ioWee (data : Byte) : Statement (.ioWee data) := by
  intro L _ _
  simp [encode, decode_ioWriteWord, decodeIoWrite]

theorem ioWnopd (data : Byte) : Statement (.ioWnopd data) := by
  intro L _ _
  simp [encode, decode_ioWriteWord, decodeIoWrite]

theorem ioWnopef (o : BitVec 1) (data : Byte) : Statement (.ioWnopef o data) := by
  intro L _ _
  have h : ∀ o : BitVec 1, ¬(0b111#3 ++ o ≤ 0x3#4) ∧ ¬(0b111#3 ++ o ≤ 0x7#4) ∧ ¬(0b111#3 ++ o ≤ 0xB#4) ∧ ¬(0b111#3 ++ o = 0xC#4) ∧ ¬(0b111#3 ++ o = 0xD#4) ∧
      (0b111#3 ++ o).extractLsb' 0 1 = o := by decide
  obtain ⟨h1, h2, h3, h4, h5, hx⟩ := h o
  simp only [encode, decode_ioWriteWord, decodeIoWrite]
  rw [if_neg h1, if_neg h2, if_neg h3, if_neg h4, if_neg h5, hx]

theorem ioSndr (i : BitVec 2) (n : Bool) : Statement (.ioSndr i n) := by
  intro L _ _
  have h : ∀ i : BitVec 2, 0b00#2 ++ i ≤ 0x3#4 ∧
      (0b00#2 ++ i).extractLsb' 0 2 = i := by decide
  obtain ⟨h1, hx⟩ := h i
  simp only [encode, decode_ioReadWord, decodeIoRead]
  rw [if_pos h1, hx]

theorem ioRzero47 (o : BitVec 2) (n : Bool) : Statement (.ioRzero47 o n) := by
  intro L _ _
  have h : ∀ o : BitVec 2, ¬(0b01#2 ++ o ≤ 0x3#4) ∧ 0b01#2 ++ o ≤ 0x7#4 ∧
      (0b01#2 ++ o).extractLsb' 0 2 = o := by decide
  obtain ⟨h1, h2, hx⟩ := h o
  simp only [encode, decode_ioReadWord, decodeIoRead]
  rw [if_neg h1, if_pos h2, hx]

theorem ioRin0 (n : Bool) : Statement (.ioRin0 n) := by
  intro L _ _
  simp [encode, decode_ioReadWord, decodeIoRead]

theorem ioRsys (n : Bool) : Statement (.ioRsys n) := by
  intro L _ _
  simp [encode, decode_ioReadWord, decodeIoRead]

theorem ioRin1 (n : Bool) : Statement (.ioRin1 n) := by
  intro L _ _
  simp [encode, decode_ioReadWord, decodeIoRead]

theorem ioRin2 (n : Bool) : Statement (.ioRin2 n) := by
  intro L _ _
  simp [encode, decode_ioReadWord, decodeIoRead]

theorem ioRzerocd (o : BitVec 1) (n : Bool) : Statement (.ioRzerocd o n) := by
  intro L _ _
  have h : ∀ o : BitVec 1, ¬(0b110#3 ++ o ≤ 0x3#4) ∧ ¬(0b110#3 ++ o ≤ 0x7#4) ∧ ¬(0b110#3 ++ o = 0x8#4) ∧ ¬(0b110#3 ++ o = 0x9#4) ∧ ¬(0b110#3 ++ o = 0xA#4) ∧ ¬(0b110#3 ++ o = 0xB#4) ∧ 0b110#3 ++ o ≤ 0xD#4 ∧
      (0b110#3 ++ o).extractLsb' 0 1 = o := by decide
  obtain ⟨h1, h2, h3, h4, h5, h6, h7, hx⟩ := h o
  simp only [encode, decode_ioReadWord, decodeIoRead]
  rw [if_neg h1, if_neg h2, if_neg h3, if_neg h4, if_neg h5, if_neg h6, if_pos h7, hx]

theorem ioRee (n : Bool) : Statement (.ioRee n) := by
  intro L _ _
  simp [encode, decode_ioReadWord, decodeIoRead]

theorem ioRzerof (n : Bool) : Statement (.ioRzerof n) := by
  intro L _ _
  simp [encode, decode_ioReadWord, decodeIoRead]

end Sys2Proof.Laws.RoundTrip
end

