-- ==== Sys2Proof/Laws/Step.lean ====
section
/-! SUPPORT. What a step can do, said once. -/

namespace Sys2Proof.Machine

variable {s t : State}

/-- A step with the reset input next. -/
theorem step_reset {rest : List HostInput} (hv : s.params.layout.valid = true) (hp : s.pending = .reset :: rest) :
    step s = .next (s.take rest).resetBlock := by
  simp [step, fetch, hv, hp]

/-- A step with an access next that decodes. -/
theorem step_access {w : Txn} {rest : List HostInput} {i : Instr} (hv : s.params.layout.valid = true)
    (hp : s.pending = .access w :: rest) (hd : decode s.params.layout w = .ok i) :
    step s = exec i (s.take rest) := by
  simp [step, fetch, hv, hp, hd]

/-- A step with nothing next. -/
theorem step_idle (hv : s.params.layout.valid = true) (hp : s.pending = []) : step s = .next s := by
  simp [step, fetch, hv, hp]

/-- The three ways a step answers a next state: nothing is next, the reset input is next, an access is next. -/
theorem step_cases (h : step s = .next t) :
    (s.params.layout.valid = true ∧ s.pending = [] ∧ t = s) ∨
    (∃ rest, s.params.layout.valid = true ∧ s.pending = .reset :: rest ∧ t = (s.take rest).resetBlock) ∨
    (∃ w rest i, s.params.layout.valid = true ∧ s.pending = .access w :: rest ∧
      decode s.params.layout w = .ok i ∧ exec i (s.take rest) = .next t) := by
  unfold step fetch at h
  by_cases hv : s.params.layout.valid = true
  · rw [if_pos hv] at h
    match hp : s.pending with
    | [] =>
      simp only [hp] at h
      exact .inl ⟨hv, rfl, by injection h with h; exact h.symm⟩
    | .reset :: rest =>
      simp only [hp] at h
      exact .inr (.inl ⟨rest, hv, rfl, by injection h with h; exact h.symm⟩)
    | .access w :: rest =>
      simp only [hp] at h
      match hd : decode s.params.layout w with
      | .ok i =>
        simp only [hd] at h
        exact .inr (.inr ⟨w, rest, i, hv, rfl, hd, h⟩)
      | .error r =>
        simp only [hd] at h
        exact absurd h (by simp)
    | .wide :: rest =>
      simp only [hp] at h
      exact absurd h (by simp)
  · rw [if_neg hv] at h
    exact absurd h (by simp)

/-- Running no step. -/
theorem runSteps_zero (s : State) : runSteps 0 s = .next s := rfl

/-- Running one step more, where it answers a next state. -/
theorem runSteps_succ {s t : State} (k : Nat) (h : step s = .next t) : runSteps (k + 1) s = runSteps k t := by
  have hc : Sys2Proof.core.step s = .next t := h
  simp only [runSteps, Host.Core.run, hc]
  rfl

/-- Running one access more: it decodes, and its meaning answers a next state. -/
theorem runSteps_access {s t : State} {w : Txn} {rest : List HostInput} {i : Instr} (k : Nat)
    (hv : s.params.layout.valid = true) (hp : s.pending = .access w :: rest) (hd : decode s.params.layout w = .ok i)
    (he : exec i (s.take rest) = .next t) : runSteps (k + 1) s = runSteps k t :=
  runSteps_succ k ((step_access hv hp hd).trans he)

end Sys2Proof.Machine
end

