-- ==== Sys2Proof/Tests/Slice0.lean ====
section
/-! SUPPORT. The model's own tests. Expected results come from spec/95_test_vectors.md (the vector is named) or from
the encodings of spec/30_encoding.md; then a witness for each statement that has hypotheses. -/

namespace Sys2Proof.Tests
open Sys2Proof Sys2Proof.Machine

/-! ## A small state, and what one step shows -/

/-- The bytes of the test image that the vectors read (95_test_vectors.md, Conventions). -/
def image : Memory :=
  [(0x0000, 0x00), (0x0001, 0x01), (0x0002, 0x02), (0x2000, 0x20), (0x2001, 0x21), (0xFFFE, 0x01), (0xFFFF, 0x00)]

/-- The draws of the vectors, for the access that the next step takes (95_test_vectors.md, Conventions). -/
def draws : List Answer :=
  [⟨1, .sndRead 1 false, 0x5A⟩, ⟨1, .sndRead 1 true, 0x5A⟩, ⟨1, .sample .in0, 0x3C⟩, ⟨1, .sample .system, 0xA5⟩,
   ⟨1, .sample .in1, 0x0F⟩, ⟨1, .sample .in2, 0x80⟩, ⟨1, .eeDataOut, 0x01⟩]

/-- The state `L=l f C=c U=u` of a vector, with the reference parameters, the test image and `EE` = 000. -/
def st (l : Latch) (f : Fsm) (c : Byte) (u : Bool) : State :=
  { latch := l, fsm := f, cmd := c, unlk := u, ee := ⟨false, false, false⟩, rom := image,
    params := { layout := .reference, unlockBit := 0, soundMode := .verbatim, romLog2 := 16 },
    pending := [], pos := 0, inputs := draws, returned := [], events := [] }

/-- The state of a vector with other parameters: `UNLOCK_BIT` and `SOUND_LANE_MODE`. -/
def stWith (b : Fin 8) (m : SoundLaneMode) (f : Fsm) : State :=
  { st 0 f 0 false with params := { layout := .reference, unlockBit := b, soundMode := m, romLog2 := 16 } }

/-- What a vector shows of the state after one access: the flash elements, `EE`, the bytes returned, the events. -/
structure Seen where
  latch : Latch
  fsm : Fsm
  cmd : Byte
  unlk : Bool
  ee : EeLines
  returned : List Byte
  events : List Event
deriving DecidableEq, Repr

/-- What is seen of an outcome, none where the step has no next state. -/
def seen (o : Host.Outcome State Fault Refusal) : Option Seen :=
  match o with
  | .next t => some ⟨t.latch, t.fsm, t.cmd, t.unlk, t.ee, t.returned, t.events⟩
  | .fault _ => none
  | .refused _ => none

/-- One step with the word as the next access. -/
def after (s : State) (w : Txn) : Option Seen := seen (step (s.issue w))

/-- The refusal of one step with the input next. -/
def refusal (s : State) (x : HostInput) : Option Refusal :=
  match step { s with pending := [x] } with
  | .refused r => some r
  | .next _ => none
  | .fault _ => none

/-- A decoded word, under the reference layout. -/
def dec (w : Txn) : Option Instr := decodeTableWord 16 w.toNat

/-! ## Well-formedness refuses -/

theorem test_wnop_at_control_port_is_ill_formed : (Instr.flWnop 1 0).wellFormed .reference = false := by decide
theorem test_wnop_at_command_port_is_ill_formed : (Instr.flWnop 3 0).wellFormed .reference = false := by decide
theorem test_wnop_at_even_offset_is_ill_formed : (Instr.flWnop 4 0).wellFormed .reference = false := by decide
theorem test_rzero01_at_data_port_is_ill_formed : (Instr.flRzero01 2 false).wellFormed .reference = false := by decide
theorem test_rzero01_in_upper_half_is_ill_formed : (Instr.flRzero01 5 false).wellFormed .reference = false := by decide
theorem test_rzero47_in_lower_half_is_ill_formed : (Instr.flRzero47 0 true).wellFormed .reference = false := by decide
theorem test_rzero47_at_data_port_is_ill_formed :
    (Instr.flRzero47 7 true).wellFormed { ctrl := 1, cmd := 3, data := 6 } = false := by decide
theorem test_layouts_that_collide_are_not_valid :
    Layout.valid { ctrl := 3, cmd := 3, data := 2 } = false ∧ Layout.valid { ctrl := 2, cmd := 3, data := 2 } = false ∧
    Layout.valid { ctrl := 1, cmd := 4, data := 2 } = false ∧
    Layout.valid { ctrl := 1, cmd := 3, data := 5 } = false := by decide

/-! ## Decoding: a word of each row, written out from its encoding (30_encoding.md section 3) -/

theorem test_decode_flWlane0 : dec 0b1000000010101011 = some (.flWlane0 0xAB) := by decide
theorem test_decode_flWctrl : dec 0b1000000100000001 = some (.flWctrl 0x01) := by decide
theorem test_decode_flWlane1 : dec 0b1000001010101011 = some (.flWlane1 0xAB) := by decide
theorem test_decode_flWcmd : dec 0b1000001110101010 = some (.flWcmd 0xAA) := by decide
theorem test_decode_flWlane2 : dec 0b1000010010101011 = some (.flWlane2 0xAB) := by decide
theorem test_decode_flWnop : dec 0b1000010110101010 = some (.flWnop 5 0xAA) ∧
    dec 0b1000011111110000 = some (.flWnop 7 0xF0) := by decide
theorem test_decode_flWlane3 : dec 0b1000011010101011 = some (.flWlane3 0xAB) := by decide
theorem test_decode_flRzero01 : dec 0b0000000000000000 = some (.flRzero01 0 false) ∧
    dec 0b0010000111111111 = some (.flRzero01 1 true) := by decide
theorem test_decode_flRdlo : dec 0b0010001011111111 = some (.flRdlo true) := by decide
theorem test_decode_flRdhi : dec 0b0000001100000000 = some (.flRdhi false) := by decide
theorem test_decode_flRzero47 : dec 0b0000010000000000 = some (.flRzero47 4 false) ∧
    dec 0b0010011100000001 = some (.flRzero47 7 true) := by decide
theorem test_decode_ioSndw : dec 0b1100001110011100 = some (.ioSndw 3 0x9C) := by decide
theorem test_decode_ioWnop47 : dec 0b1100011011111111 = some (.ioWnop47 2 0xFF) := by decide
theorem test_decode_ioWnop8b : dec 0b1100100111111111 = some (.ioWnop8b 1 0xFF) := by decide
theorem test_decode_ioWee : dec 0b1100110000000111 = some (.ioWee 0x07) := by decide
theorem test_decode_ioWnopd : dec 0b1100110111111111 = some (.ioWnopd 0xFF) := by decide
theorem test_decode_ioWnopef : dec 0b1100111011111111 = some (.ioWnopef 0 0xFF) ∧
    dec 0b1100111111111111 = some (.ioWnopef 1 0xFF) := by decide
theorem test_decode_ioSndr : dec 0b0110000100000000 = some (.ioSndr 1 true) := by decide
theorem test_decode_ioRzero47 : dec 0b0100010100000000 = some (.ioRzero47 1 false) := by decide
theorem test_decode_ioRin0 : dec 0b0100100000000000 = some (.ioRin0 false) := by decide
theorem test_decode_ioRsys : dec 0b0110100100000000 = some (.ioRsys true) := by decide
theorem test_decode_ioRin1 : dec 0b0100101000000000 = some (.ioRin1 false) := by decide
theorem test_decode_ioRin2 : dec 0b0100101111111111 = some (.ioRin2 false) := by decide
theorem test_decode_ioRzerocd : dec 0b0100110000000000 = some (.ioRzerocd 0 false) ∧
    dec 0b0110110100000000 = some (.ioRzerocd 1 true) := by decide
theorem test_decode_ioRee : dec 0b0110111000000000 = some (.ioRee true) := by decide
theorem test_decode_ioRzerof : dec 0b0100111100000000 = some (.ioRzerof false) := by decide

/-- V-REF-1, 4, 7, 8, 9, 10: the reserved words, the first condition in table order naming the refusal. -/
theorem test_reserved_words_are_refused :
    refusal (st 0 .idle 0 false) (.access 0x1000) = some (.reserved .reservedZ) ∧
    refusal (st 0 .idle 0 false) (.access 0x0800) = some (.reserved .outsideFlashWindow) ∧
    refusal (st 0 .idle 0 false) (.access 0xA000) = some (.reserved .peekOnWrite) ∧
    refusal (st 0 .idle 0 false) (.access 0xE000) = some (.reserved .peekOnWrite) ∧
    refusal (st 0 .idle 0 false) (.access 0xA800) = some (.reserved .outsideFlashWindow) ∧
    refusal (st 0 .idle 0 false) (.access 0xB800) = some (.reserved .reservedZ) := by decide

/-- 20_memory.md R44, 60_exceptions.md R152: the other two refusals. -/
theorem test_wide_access_and_invalid_layout_are_refused :
    refusal (st 0 .idle 0 false) .wide = some .wideAccess ∧
    refusal { st 0 .idle 0 false with
      params := { layout := ⟨3, 3, 2⟩, unlockBit := 0, soundMode := .verbatim, romLog2 := 16 } } (.access 0x8000) =
      some .invalidConfiguration := by decide

/-- 30_encoding.md R71 by hand: control at 7, command at 5, data at 4 and 5. -/
theorem test_decode_under_another_layout :
    decode ⟨7, 5, 4⟩ 0x8701 = .ok (.flWctrl 0x01) ∧ decode ⟨7, 5, 4⟩ 0x85AA = .ok (.flWcmd 0xAA) ∧
    decode ⟨7, 5, 4⟩ 0x8301 = .ok (.flWnop 3 0x01) ∧ decode ⟨7, 5, 4⟩ 0x0400 = .ok (.flRdlo false) ∧
    decode ⟨7, 5, 4⟩ 0x0500 = .ok (.flRdhi false) ∧ decode ⟨7, 5, 4⟩ 0x0200 = .ok (.flRzero01 2 false) :=
  ⟨rfl, rfl, rfl, rfl, rfl, rfl⟩

/-- 30_encoding.md R73: the nine words of `UNLOCKCMD 0xF0` (95_test_vectors.md E1) and the word of `EEBITS 1, 1, 0`. -/
theorem test_pseudo_instructions_expand :
    asmUnlockCmd .reference 0xF0 =
      [0x8055, 0x8255, 0x83AA, 0x80AA, 0x822A, 0x8355, 0x8055, 0x8255, 0x83F0] ∧
    asmEeBits .reference true true false = [0xCC03] ∧ asmRdWord .reference = [0x0200, 0x0300] ∧
    asmSetLatch .reference 0x12345678 = [0x8078, 0x8256, 0x8434, 0x8612] ∧ asmLock .reference = [0x8100] := by decide

/-! ## Flash window, writes (V-LANE, V-CTRL, V-FSM, V-NOP) -/

/-- V-LANE-1. -/
theorem test_lane0 : after (st 0x12345678 .idle 0 false) 0x80AB =
    some ⟨0x123456AB, .idle, 0, false, ⟨false, false, false⟩, [], []⟩ := by decide
/-- V-LANE-2. -/
theorem test_lane1 : after (st 0x12345678 .idle 0 false) 0x82AB =
    some ⟨0x1234AB78, .idle, 0, false, ⟨false, false, false⟩, [], []⟩ := by decide
/-- V-LANE-3. -/
theorem test_lane2 : after (st 0x12345678 .idle 0 false) 0x84AB =
    some ⟨0x12AB5678, .idle, 0, false, ⟨false, false, false⟩, [], []⟩ := by decide
/-- V-LANE-7. -/
theorem test_lane3_in_unlock2 : after (st 0x00002AAA .unlock2 0xF0 true) 0x86FF =
    some ⟨0xFF002AAA, .unlock2, 0xF0, true, ⟨false, false, false⟩, [], []⟩ := by decide
/-- V-CTRL-2. -/
theorem test_control_clears : after (st 0x1000 .idle 0xF0 true) 0x81FE =
    some ⟨0x1000, .idle, 0xF0, false, ⟨false, false, false⟩, [], []⟩ := by decide
/-- V-CTRL-5. -/
theorem test_control_bit_3 : after (stWith 3 .verbatim .idle) 0x8108 =
    some ⟨0, .idle, 0, true, ⟨false, false, false⟩, [], []⟩ := by decide
/-- V-FSM-4 and V-FSM-9. -/
theorem test_unlock_step1 : after (st 0xFFFF5555 .idle 0 false) 0x83AA =
      some ⟨0xFFFF5555, .unlock1, 0, false, ⟨false, false, false⟩, [], []⟩ ∧
    after (st 0x5555 .unlock1 0 false) 0x83AA =
      some ⟨0x5555, .unlock1, 0, false, ⟨false, false, false⟩, [], []⟩ := by decide
/-- V-FSM-12 and V-FSM-14. -/
theorem test_unlock_step3 : after (st 0x5555 .unlock2 0 false) 0x83AA =
      some ⟨0x5555, .idle, 0xAA, false, ⟨false, false, false⟩, [], []⟩ ∧
    after (st 0x2AAA .unlock2 0 false) 0x83F0 =
      some ⟨0x2AAA, .unlock2, 0, false, ⟨false, false, false⟩, [], []⟩ := by decide
/-- V-NOP-2. -/
theorem test_unused_odd_offset : after (st 0x5555 .unlock2 0 false) 0x87F0 =
    some ⟨0x5555, .unlock2, 0, false, ⟨false, false, false⟩, [], []⟩ := by decide

/-! ## Flash window, reads (V-RD, V-RZ) -/

/-- V-RD-8. -/
theorem test_even_read_masks_the_address : after (st 0x8001 .idle 0xF0 true) 0x0200 =
    some ⟨0x8001, .idle, 0xF0, true, ⟨false, false, false⟩, [0x02], []⟩ := by decide
/-- V-RD-5. -/
theorem test_even_read_ignores_data : after (st 0x1000 .idle 0xF0 true) 0x02FF =
    some ⟨0x1000, .idle, 0xF0, true, ⟨false, false, false⟩, [0x20], []⟩ := by decide
/-- V-RD-10 and V-RD-2. -/
theorem test_odd_read_advances : after (st 0xFFFFFFFF .idle 0xF0 true) 0x0300 =
      some ⟨0, .idle, 0xF0, true, ⟨false, false, false⟩, [0x00], []⟩ ∧
    after (st 0x1000 .idle 0xF0 true) 0x0300 =
      some ⟨0x1001, .idle, 0xF0, true, ⟨false, false, false⟩, [0x21], []⟩ := by decide
/-- V-RD-3 and V-RD-7. -/
theorem test_odd_read_does_not_advance : after (st 0x1000 .idle 0xF0 true) 0x2300 =
      some ⟨0x1000, .idle, 0xF0, true, ⟨false, false, false⟩, [0x21], []⟩ ∧
    after (st 0x1000 .idle 0xF0 false) 0x0300 =
      some ⟨0x1000, .idle, 0xF0, false, ⟨false, false, false⟩, [0x00], []⟩ := by decide
/-- V-RZ-7. -/
theorem test_zero_read_low : after (st 0x1000 .idle 0xF0 true) 0x2100 =
    some ⟨0x1000, .idle, 0xF0, true, ⟨false, false, false⟩, [0x00], []⟩ := by decide
/-- V-RZ-6. -/
theorem test_zero_read_high : after (st 0x1000 .idle 0xF0 true) 0x0700 =
    some ⟨0x1000, .idle, 0xF0, true, ⟨false, false, false⟩, [0x00], []⟩ := by decide

/-! ## I/O board window (V-SND, V-SNAP, V-ZERO, V-WNOP, V-EE) -/

/-- V-SND-5. -/
theorem test_sound_peek : after (st 0 .idle 0 false) 0x6100 =
    some ⟨0, .idle, 0, false, ⟨false, false, false⟩, [0x5A], [.query (.sndRead 1 true)]⟩ := by decide
/-- V-SND-12 and V-SND-13. -/
theorem test_sound_read_even_only : after (stWith 0 .evenOnly .idle) 0x4200 =
      some ⟨0, .idle, 0, false, ⟨false, false, false⟩, [0x5A], [.query (.sndRead 1 false)]⟩ ∧
    after (stWith 0 .evenOnly .idle) 0x4300 =
      some ⟨0, .idle, 0, false, ⟨false, false, false⟩, [0x00], []⟩ := by decide
/-- V-SND-9. -/
theorem test_sound_write : after (st 0 .idle 0 false) 0xC39C =
    some ⟨0, .idle, 0, false, ⟨false, false, false⟩, [], [.sndWrite 3 0x9C]⟩ := by decide
/-- V-SND-16 and V-SND-17. -/
theorem test_sound_write_even_only : after (stWith 0 .evenOnly .idle) 0xC29C =
      some ⟨0, .idle, 0, false, ⟨false, false, false⟩, [], [.sndWrite 1 0x9C]⟩ ∧
    after (stWith 0 .evenOnly .idle) 0xC39C =
      some ⟨0, .idle, 0, false, ⟨false, false, false⟩, [], []⟩ := by decide
/-- V-SNAP-5. -/
theorem test_in0_peek : after (st 0 .idle 0 false) 0x6800 =
    some ⟨0, .idle, 0, false, ⟨false, false, false⟩, [0x3C], [.query (.sample .in0)]⟩ := by decide
/-- V-SNAP-7. -/
theorem test_system : after (st 0x1000 .idle 0xF0 true) 0x4900 =
    some ⟨0x1000, .idle, 0xF0, true, ⟨false, false, false⟩, [0xA5], [.query (.sample .system)]⟩ := by decide
/-- V-SNAP-3. -/
theorem test_in1 : after (st 0 .idle 0 false) 0x4A00 =
    some ⟨0, .idle, 0, false, ⟨false, false, false⟩, [0x0F], [.query (.sample .in1)]⟩ := by decide
/-- V-SNAP-6. -/
theorem test_in2 : after (st 0 .idle 0 false) 0x4BFF =
    some ⟨0, .idle, 0, false, ⟨false, false, false⟩, [0x80], [.query (.sample .in2)]⟩ := by decide
/-- V-ZERO-4. -/
theorem test_io_zero_47 : after (st 0 .idle 0 false) 0x4700 =
    some ⟨0, .idle, 0, false, ⟨false, false, false⟩, [0x00], []⟩ := by decide
/-- V-EE-9. -/
theorem test_io_zero_c : after { st 0 .idle 0 false with ee := ⟨true, true, false⟩ } 0x4C00 =
    some ⟨0, .idle, 0, false, ⟨true, true, false⟩, [0x00], []⟩ := by decide
/-- V-ZERO-7. -/
theorem test_io_zero_f : after (st 0 .idle 0 false) 0x4F00 =
    some ⟨0, .idle, 0, false, ⟨false, false, false⟩, [0x00], []⟩ := by decide
/-- V-WNOP-2. -/
theorem test_io_nop_47 : after { st 0 .idle 0 false with ee := ⟨true, false, true⟩ } 0xC7FF =
    some ⟨0, .idle, 0, false, ⟨true, false, true⟩, [], []⟩ := by decide
/-- V-WNOP-3. -/
theorem test_io_nop_8b : after { st 0 .idle 0 false with ee := ⟨true, false, true⟩ } 0xC8FF =
    some ⟨0, .idle, 0, false, ⟨true, false, true⟩, [], []⟩ := by decide
/-- V-WNOP-7. -/
theorem test_io_nop_d : after { st 0 .idle 0 false with ee := ⟨true, false, true⟩ } 0xCDFF =
    some ⟨0, .idle, 0, false, ⟨true, false, true⟩, [], []⟩ := by decide
/-- V-WNOP-8. -/
theorem test_io_nop_ef : after { st 0 .idle 0 false with ee := ⟨true, false, true⟩ } 0xCEFF =
    some ⟨0, .idle, 0, false, ⟨true, false, true⟩, [], []⟩ := by decide
/-- V-EE-3. -/
theorem test_ee_write : after (st 0 .idle 0 false) 0xCCF9 =
    some ⟨0, .idle, 0, false, ⟨true, false, false⟩, [], [.eeDrive ⟨true, false, false⟩]⟩ := by decide
/-- V-EE-5: the same levels still give one event. -/
theorem test_ee_write_same : after { st 0 .idle 0 false with ee := ⟨true, false, true⟩ } 0xCC05 =
    some ⟨0, .idle, 0, false, ⟨true, false, true⟩, [], [.eeDrive ⟨true, false, true⟩]⟩ := by decide
/-- V-EE-6. -/
theorem test_ee_read_high : after (st 0 .idle 0 false) 0x4E00 =
    some ⟨0, .idle, 0, false, ⟨false, false, false⟩, [0xFF], [.query .eeDataOut]⟩ := by decide
/-- V-EE-7. -/
theorem test_ee_read_low : after { st 0 .idle 0 false with inputs := [⟨1, .eeDataOut, 0x00⟩] } 0x4E00 =
    some ⟨0, .idle, 0, false, ⟨false, false, false⟩, [0xFE], [.query .eeDataOut]⟩ := by decide

/-! ## Reset (V-RST) and the host's words after reset -/

/-- V-RST-1. -/
theorem test_reset_keeps_ee :
    seen (step { st 0xDEADBEEF .unlock2 0xF0 true with ee := ⟨true, true, false⟩, pending := [.reset] }) =
      some ⟨0, .idle, 0, false, ⟨true, true, false⟩, [], []⟩ := by decide

/-- 70_reset_and_hazards.md R172: the first read after reset returns 0x00. -/
theorem test_first_read_after_reset :
    (seen (step (State.reset.withFetchWord 16 0x0300))).map (fun v => v.returned) = some [0x00#8] := by decide

/-! ## The canonical form of the known ROM bytes -/

/-- Loading the byte that an unlisted index reads as lists nothing. -/
theorem test_load_of_the_free_byte_lists_nothing : Memory.load [] 5 (Config.romImage 5) = [] := by
  simp [Memory.load]

/-! ## Witnesses: a state and operands that meet the hypotheses of each statement, one for each clause -/

/-- A state whose next inputs are `xs`. -/
def next (s : State) (xs : List HostInput) : State := { s with pending := xs }

/-- A state in read-array mode. -/
def ra (l : Latch) : State := st l .idle 0xF0 true

/-- Two words that cross the end of the image, listed in canonical form whatever the free bytes are. -/
def listed : Memory := [(0, Config.romImage 0 + 1), (0xFFFF, Config.romImage 0xFFFF + 1)]

/-- A state with an image of `2 ^ k` bytes. -/
def sized (k : Fin 33) : State :=
  { st 0 .idle 0 false with params := { layout := .reference, unlockBit := 0, soundMode := .verbatim, romLog2 := k } }

theorem witness_LaneWritesReplaceTheirByte :
    (sized 17).params.romSize ≤ 2 ^ 17 ∧ 2 ^ 17 < (sized 18).params.romSize ∧ (sized 25).params.romSize ≤ 2 ^ 25 ∧
    (0xFE#8).getLsbD 0 ≠ (0xFF#8).getLsbD 0 ∧ (0x80#8).extractLsb' 0 7 = (0x00#8).extractLsb' 0 7 ∧
    (∀ k d, ∃ t, exec (.flWlane2 d) (sized k) = .next t) ∧ (∀ k d, ∃ t, exec (.flWlane3 d) (sized k) = .next t) ∧
    (∀ k v, ∃ t, exec (.flWcmd v) (sized k) = .next t) :=
  ⟨by decide, by decide, by decide, by decide, by decide, fun _ _ => ⟨_, rfl⟩, fun _ _ => ⟨_, rfl⟩, fun _ _ => ⟨_, rfl⟩⟩

theorem witness_UnlockStepsOneAndTwo :
    ((st 0xFFFF5555 .idle 0 false).fsm = .idle ∧ (st 0xFFFF5555 .idle 0 false).latch.extractLsb' 0 16 = 0x5555#16) ∧
    ((st 0x5554 .idle 0 false).fsm = .idle ∧ (st 0x5554 .idle 0 false).latch.extractLsb' 0 16 ≠ 0x5555#16) ∧
    ((st 0x2AAA .unlock1 0 false).fsm = .unlock1 ∧ (st 0x2AAA .unlock1 0 false).latch.extractLsb' 0 16 = 0x2AAA#16) ∧
    ((st 0x5555 .unlock1 0 false).fsm = .unlock1 ∧
      (st 0x5555 .unlock1 0 false).latch.extractLsb' 0 16 ≠ 0x2AAA#16) := by decide

theorem witness_StepThreeLatchesAnyCommand :
    ((st 0x5555 .unlock2 0 false).fsm = .unlock2 ∧ (st 0x5555 .unlock2 0 false).latch.extractLsb' 0 16 = 0x5555#16) ∧
    ((st 0x2AAA .unlock2 0 false).fsm = .unlock2 ∧
      (st 0x2AAA .unlock2 0 false).latch.extractLsb' 0 16 ≠ 0x5555#16) := by decide

theorem witness_UnusedFlashWriteChangesNothing :
    ((5#3).getLsbD 0 = true ∧ 5#3 ≠ Layout.reference.ctrl ∧ 5#3 ≠ Layout.reference.cmd) ∧
    ((1#3).getLsbD 0 = true ∧ 1#3 ≠ (Layout.mk 7 5 4).ctrl ∧ 1#3 ≠ (Layout.mk 7 5 4).cmd) := by decide

theorem witness_ReadPathReturnsTheSelectedByte :
    ((ra 0x1000).cmd = 0xF0#8 ∧ (ra 0x1000).unlk = true) ∧
    ¬((st 0 .idle 0xF1 true).cmd = 0xF0#8 ∧ (st 0 .idle 0xF1 true).unlk = true) ∧
    ¬((st 0 .idle 0xF0 false).cmd = 0xF0#8 ∧ (st 0 .idle 0xF0 false).unlk = true) := by decide

theorem witness_LatchIncrementWrapsAndHappensNowhereElse :
    ((ra 0xFFFFFFFF).latch = 0xFFFFFFFF#32 ∧ (ra 0xFFFFFFFF).cmd = 0xF0#8 ∧ (ra 0xFFFFFFFF).unlk = true) ∧
    (∃ t, exec (.flRdhi false) (ra 0) = .next t ∧ t.latch ≠ (ra 0).latch) ∧
    (∃ t, exec (.flWlane3 0x80) (st 0 .idle 0 false) = .next t ∧ t.latch ≠ (st 0 .idle 0 false).latch) :=
  ⟨by decide, ⟨_, rfl, by decide⟩, ⟨_, rfl, by decide⟩⟩

theorem witness_RomAddressIsTheMaskedConcatenation :
    (Params.mk .reference 0 .verbatim 0).romSize = 1 := by decide

theorem witness_OtherFlashReadsReturnZero :
    (0#3 ≠ Layout.reference.data ∧ 0#3 ≠ Layout.reference.data + 1) ∧
    (7#3 ≠ Layout.reference.data ∧ 7#3 ≠ Layout.reference.data + 1) := by decide

theorem witness_OneReadChangesTheBlock :
    (Instr.flRdhi false).isRead = true ∧ (ra 0).cmd = 0xF0#8 ∧ (ra 0).unlk = true ∧
    (Instr.ioRee true).isRead = true := by decide

theorem witness_WritesChangeTheirElementOnly :
    (∃ t, exec (.flWlane0 1) (st 0 .idle 0 false) = .next t ∧ t.latch ≠ 0#32) ∧
    (∃ t, exec (.flWctrl 1) (st 0 .idle 0 false) = .next t ∧ t.unlk ≠ false) ∧
    (∃ t, exec (.flWcmd 0xAA) (st 0x5555 .idle 0 false) = .next t ∧ t.fsm ≠ .idle) ∧
    (∃ t, exec (.flWcmd 0xF0) (st 0x5555 .unlock2 0 false) = .next t ∧ t.cmd ≠ 0#8) ∧
    (∃ t, exec (.ioWee 7) (st 0 .idle 0 false) = .next t ∧ t.ee ≠ ⟨false, false, false⟩) ∧
    (Instr.flWlane0 1).isRead = false ∧ (Instr.flWctrl 1).isRead = false ∧ (Instr.flWcmd 0xAA).isRead = false ∧
    (Instr.flWcmd 0xF0).isRead = false ∧ (Instr.ioWee 7).isRead = false :=
  ⟨⟨_, rfl, by decide⟩, ⟨_, rfl, by decide⟩, ⟨_, rfl, by decide⟩, ⟨_, rfl, by decide⟩, ⟨_, rfl, by decide⟩,
    rfl, rfl, rfl, rfl, rfl⟩

/-- Also the witness of SoundWriteForwardsItsByte: the hypotheses are the same. -/
theorem witness_SoundReadDrawsItsIndex :
    (stWith 0 .verbatim .idle).params.soundMode = .verbatim ∧ (stWith 0 .evenOnly .idle).params.soundMode = .evenOnly ∧
    (0#2 = 0 ∨ 0#2 = 2) ∧ (2#2 = 0 ∨ 2#2 = 2) ∧ (1#2 = 1 ∨ 1#2 = 3) ∧ (3#2 = 1 ∨ 3#2 = 3) := by decide

theorem witness_UnmappedIoReadsReturnZero :
    ∀ off ∈ [0x4#4, 0x7#4, 0xC#4, 0xD#4, 0xF#4],
      (4 ≤ off.toNat ∧ off.toNat ≤ 7) ∨ off = 0xC ∨ off = 0xD ∨ off = 0xF := by decide

theorem witness_UnmappedIoWritesDoNothing :
    ∀ off ∈ [0x4#4, 0x7#4, 0x8#4, 0xB#4, 0xD#4, 0xF#4], 4 ≤ off.toNat ∧ off ≠ 0xC := by decide

theorem witness_EepromWriteDrivesThreeLines : ∀ k, k < 3 → (0xF9#8).getLsbD k = (0x01#8).getLsbD k := by decide

theorem witness_EepromDataOutReadsFEOrFF : ∀ k ∈ [1, 7], 1 ≤ k ∧ k < 8 := by decide

theorem witness_EveryAccessCompletes :
    (Instr.ioRin2 false).isRead = true ∧ (Instr.ioWnopef 1 0).isRead = false := by decide

theorem witness_EachStepIsOneTransition :
    (∃ t, step (next (ra 0) [.access 0x0300]) = .next t ∧ t.returned ≠ []) ∧
    (∃ t, step (next (ra 0) [.access 0xCC07, .reset]) = .next t ∧ t.events ≠ []) ∧
    (∃ t, step (next (ra 0) []) = .next t) :=
  ⟨⟨_, rfl, by decide⟩, ⟨_, rfl, by decide⟩, ⟨_, rfl⟩⟩

theorem witness_UpperLatchNeverAffectsTheCommandMachine :
    (st 0xFFFF5555 .idle 1 true).latch.extractLsb' 0 16 = (st 0x5555 .idle 1 false).latch.extractLsb' 0 16 ∧
    (st 0xFFFF5555 .idle 1 true).fsm = (st 0x5555 .idle 1 false).fsm ∧
    (st 0xFFFF5555 .idle 1 true).cmd = (st 0x5555 .idle 1 false).cmd := by decide

theorem witness_CommandMachineAndUnlockFlagAreIndependent :
    (∃ t, exec (.flWcmd 0xF0) (st 0x5555 .unlock2 0 false) = .next t ∧ t.cmd = 0xF0#8) ∧
    (∃ t, exec (.flWctrl 1) (st 0 .unlock1 0 false) = .next t ∧ t.unlk = true) ∧
    (∃ t, exec (.flRdlo true) (ra 0) = .next t) ∧ (∃ t, exec (.flRdhi false) (ra 0) = .next t) :=
  ⟨⟨_, rfl, by decide⟩, ⟨_, rfl, by decide⟩, ⟨_, rfl⟩, ⟨_, rfl⟩⟩

theorem witness_CommandByteMattersOnlyAsTheReadArrayTest :
    (0x90#8 = 0xF0#8 ↔ (st 0 .idle 0xF1 true).cmd = 0xF0#8) ∧ (0xF0#8 = 0xF0#8 ↔ (ra 0).cmd = 0xF0#8) := by decide

theorem witness_HiddenStateShowsOnlyThroughReadArray :
    ¬((st 0 .unlock1 0xF0 false).cmd = 0xF0#8 ∧ (st 0 .unlock1 0xF0 false).unlk = true) := by decide

theorem witness_WindowsShareNoState :
    ((Instr.ioWee 7).isIo = true ∧ ∃ t, exec (.ioWee 7) (ra 0) = .next t ∧ t.ee ≠ (ra 0).ee) ∧
    ((Instr.flRdhi false).isIo = false ∧ ∃ t, exec (.flRdhi false) (ra 0) = .next t ∧ t.latch ≠ (ra 0).latch) :=
  ⟨⟨rfl, _, rfl, by decide⟩, ⟨rfl, _, rfl, by decide⟩⟩

theorem witness_ElementsChangeByTheirWritersOnly :
    (∃ t, step (next (ra 0) [.access 0x0300]) = .next t ∧ t.latch ≠ (ra 0).latch) ∧
    (∃ t, step (next (ra 0) [.access 0x8601]) = .next t ∧ t.latch ≠ (ra 0).latch) ∧
    (∃ t, step (next (ra 1) [.reset]) = .next t ∧ t.latch ≠ (ra 1).latch ∧ t.cmd ≠ 0xF0#8 ∧ t.unlk ≠ true) ∧
    (∃ t, step (next (ra 0x5555) [.access 0x83AA]) = .next t ∧ t.fsm ≠ .idle) ∧
    (∃ t, step (next (st 0x5555 .unlock2 0 false) [.access 0x83F0]) = .next t ∧ t.cmd ≠ 0#8 ∧ t.fsm ≠ .unlock2) ∧
    (∃ t, step (next (ra 0) [.access 0x8100]) = .next t ∧ t.unlk ≠ true) ∧
    (∃ t, step (next (ra 0) [.access 0xCC04]) = .next t ∧ t.ee ≠ (ra 0).ee) :=
  ⟨⟨_, rfl, by decide⟩, ⟨_, rfl, by decide⟩, ⟨_, rfl, by decide⟩, ⟨_, rfl, by decide⟩, ⟨_, rfl, by decide⟩,
    ⟨_, rfl, by decide⟩, ⟨_, rfl, by decide⟩⟩

theorem witness_IdleIsReachedByStepThreeOrResetOnly :
    (∃ t, step (next (st 0x5555 .unlock2 0 false) [.access 0x8390]) = .next t ∧ t.fsm = .idle) ∧
    (∃ t, step (next (st 0 .unlock1 0 false) [.reset]) = .next t ∧ t.fsm = .idle) :=
  ⟨⟨_, rfl, by decide⟩, ⟨_, rfl, by decide⟩⟩

theorem witness_RomImageIsConstantAndReadInRange :
    ∃ t, runSteps 2 (next (ra 0) [.access 0x0300, .access 0x0200]) = .next t ∧ t.returned = [0x01#8, 0x02#8] :=
  ⟨_, rfl, by decide⟩

theorem witness_StepRunsTheDecodedAccess :
    Layout.reference.valid = true ∧ (next (ra 0) [.access 0x0300]).pending = .access 0x0300 :: [] ∧
    decode Layout.reference 0x0300 = .ok (.flRdhi false) := ⟨rfl, rfl, rfl⟩

theorem witness_ResetZeroesTheFlashElements :
    (next (ra 1) [.reset, .wide]).params.layout.valid = true ∧ (next (ra 1) [.reset, .wide]).pending = [.reset, .wide] :=
  by decide

theorem witness_ResetKeepsEverythingElse :
    (next (ra 1) [.reset]).params.layout.valid = true ∧ ∃ t, step (next (ra 1) [.reset]) = .next t :=
  ⟨rfl, _, rfl⟩

theorem witness_AfterResetFlashReadsReturnZero :
    (next (ra 1) [.reset, .access 0x0300]).params.layout.valid = true ∧
    decode Layout.reference 0x0300 = .ok (.flRdhi false) ∧ (Instr.flRdhi false).isIo = false ∧
    (Instr.flRdhi false).isRead = true := ⟨rfl, rfl, rfl, rfl⟩

theorem witness_StepsAreRefusedNowhereElse : (ra 0).params.layout.valid = true ∧ (ra 0).pending = [] := by decide

theorem witness_UnlockCmdEndsWhereItsStartSays :
    ∀ f ∈ [Fsm.idle, Fsm.unlock1, Fsm.unlock2], ∃ s : State, s.params.layout.valid = true ∧ s.fsm = f ∧
      s.pending = accesses (asmUnlockCmd s.params.layout 0xAA) ++ [.reset] :=
  fun f _ => ⟨next (st 0x77770000 f 0x12 false) (accesses (asmUnlockCmd .reference 0xAA) ++ [.reset]),
    by show Layout.reference.valid = true; rfl, by cases f <;> rfl, by cases f <;> rfl⟩

theorem witness_UnlockCmdTwiceRecovers :
    ∃ s : State, s.params.layout.valid = true ∧ s.fsm = .unlock2 ∧
      s.pending = accesses (asmUnlockCmd s.params.layout 0xF0 ++ asmUnlockCmd s.params.layout 0xF0) ++ [] :=
  ⟨next (st 0x2AAA .unlock2 0 false)
    (accesses (asmUnlockCmd .reference 0xF0 ++ asmUnlockCmd .reference 0xF0) ++ []), rfl, rfl, rfl⟩

theorem witness_SequentialReadsStreamTheImage :
    ∃ s : State, s.params.layout.valid = true ∧ s.cmd = 0xF0#8 ∧ s.unlk = true ∧ s.latch = 0xFFFFFFFF#32 ∧
      s.pending = accesses (readWords s.params.layout 2) ++ [] :=
  ⟨next (ra 0xFFFFFFFF) (accesses (readWords .reference 2) ++ []), rfl, rfl, rfl, rfl, rfl⟩

theorem witness_BootSequenceReadsTheWord :
    ∃ s : State, s.params.layout.valid = true ∧ s.params.unlockBit = 0 ∧ s.fsm ≠ .unlock2 ∧
      s.pending = accesses (asmReadArray s.params.layout ++ asmSetLatch s.params.layout 0x1000 ++
        asmRdWord s.params.layout) ++ [] :=
  ⟨next (st 0 .idle 0 false)
    (accesses (asmReadArray .reference ++ asmSetLatch .reference 0x1000 ++ asmRdWord .reference) ++ []),
    rfl, rfl, by decide, rfl⟩

theorem witness_ClearingTheFlagKeepsTheCommand :
    (ra 0).cmd = 0xF0#8 ∧ (ra 0).unlk = true ∧ (0xFE#8).getLsbD (ra 0).params.unlockBit.val = false ∧
    (0x01#8).getLsbD (ra 0).params.unlockBit.val = true := by decide

theorem witness_OddReadSpoilsTheUnlockAddress :
    ((ra 0x5555).cmd = 0xF0#8 ∧ (ra 0x5555).unlk = true ∧ (ra 0x5555).latch.extractLsb' 0 16 = 0x5555#16 ∧
      (ra 0x5555).fsm = .idle) ∧
    ((st 0x5555 .unlock2 0xF0 true).cmd = 0xF0#8 ∧ (st 0x5555 .unlock2 0xF0 true).unlk = true ∧
      (st 0x5555 .unlock2 0xF0 true).latch.extractLsb' 0 16 = 0x5555#16 ∧
      (st 0x5555 .unlock2 0xF0 true).fsm = .unlock2) ∧
    ((st 0x2AAA .unlock1 0xF0 true).cmd = 0xF0#8 ∧ (st 0x2AAA .unlock1 0xF0 true).unlk = true ∧
      (st 0x2AAA .unlock1 0xF0 true).latch.extractLsb' 0 16 = 0x2AAA#16 ∧
      (st 0x2AAA .unlock1 0xF0 true).fsm = .unlock1) := by decide

theorem witness_OddReadFirstSkipsToTheNextWord : (ra 0xFFFFFFFF).cmd = 0xF0#8 ∧ (ra 0xFFFFFFFF).unlk = true := by
  decide

theorem witness_DecodeUndoesEncode :
    (Layout.mk 7 5 4).valid = true ∧ (Instr.flWnop 1 0xAA).wellFormed ⟨7, 5, 4⟩ = true ∧
    (Instr.flRzero01 3 true).wellFormed ⟨7, 5, 4⟩ = true ∧ (Instr.flRzero47 7 false).wellFormed ⟨7, 5, 4⟩ = true ∧
    (Instr.flRdhi true).wellFormed ⟨7, 5, 4⟩ = true := by decide

theorem witness_EncodeUndoesDecode :
    Layout.reference.valid = true ∧ decode Layout.reference 0x2256 = .ok (.flRdlo true) ∧
    decode Layout.reference 0x83F0 = .ok (.flWcmd 0xF0) := ⟨rfl, rfl, rfl⟩

theorem witness_ReadsIgnoreData :
    (0x0300#16).getLsbD 15 = false ∧ (0x03FF#16).extractLsb' 8 8 = (0x0300#16).extractLsb' 8 8 := by decide

theorem witness_FlashDecodersFollowTheLayout :
    (Layout.mk 7 5 4).valid = true ∧ (1#3).getLsbD 0 = true ∧ 1#3 ≠ (Layout.mk 7 5 4).ctrl ∧
    1#3 ≠ (Layout.mk 7 5 4).cmd := by decide

/-- A state that lists ROM bytes, about to take an access that returns a byte. -/
theorem witness_StepKeepsTheInvariant :
    ∃ s t : State, s.inv ∧ s.rom ≠ [] ∧ step s = .next t ∧ t.returned ≠ [] := by
  refine ⟨{ st 0 .idle 0 false with rom := listed, pending := [.access 0x0400] }, _, ⟨rfl, ?_, ?_, ?_, ?_⟩, ?_, rfl, ?_⟩
  · simp [listed, Memory.wf]
  · decide
  · decide
  · decide
  · simp [listed]
  · simp [State.ret, State.take, st]

end Sys2Proof.Tests
end

section
/-! PROOF. The scope of the block (00_scope.md): what every step keeps, what the reset input does, and what the command
machine sees of the latch. An access is bounded once, by `OneInteraction`; the invariant follows from that bound. -/

namespace Sys2Proof.Machine

/-! ## One transition, at most one interaction (20_memory.md R49) -/

section OneInteraction

variable {s t : State}

/-- The most that an access may do outside the block's five elements: its surroundings stay the same, and it returns
at most one byte and performs at most one external event. -/
structure OneInteraction (s t : State) : Prop where
  surroundings : SameSurroundings s t
  bytes : ∃ bs, t.returned = s.returned ++ bs ∧ bs.length ≤ 1
  events : ∃ es, t.events = s.events ++ es ∧ es.length ≤ 1

theorem OneInteraction.of_silent (h : SameSurroundings s t) (hr : ReturnsNothing s t) (he : PerformsNothing s t) :
    OneInteraction s t :=
  ⟨h, ⟨[], hr.trans (List.append_nil _).symm, by simp⟩, ⟨[], he.trans (List.append_nil _).symm, by simp⟩⟩

theorem OneInteraction.of_returns {b : Byte} (h : SameSurroundings s t) (hr : Returns s t b)
    (he : PerformsNothing s t) : OneInteraction s t :=
  ⟨h, ⟨[b], hr, by simp⟩, ⟨[], he.trans (List.append_nil _).symm, by simp⟩⟩

theorem OneInteraction.of_performs {e : Event} (h : SameSurroundings s t) (hr : ReturnsNothing s t)
    (he : Performs s t e) : OneInteraction s t :=
  ⟨h, ⟨[], hr.trans (List.append_nil _).symm, by simp⟩, ⟨[e], he, by simp⟩⟩

theorem OneInteraction.of_returns_performs {b : Byte} {e : Event} (h : SameSurroundings s t) (hr : Returns s t b)
    (he : Performs s t e) : OneInteraction s t :=
  ⟨h, ⟨[b], hr, by simp⟩, ⟨[e], he, by simp⟩⟩

/-! ### The operations that the meanings are made of -/

variable (s)

theorem oneInteraction_refl : OneInteraction s s :=
  .of_silent ⟨fun _ => rfl, rfl, rfl, rfl, rfl, rfl⟩ rfl rfl

theorem oneInteraction_setLatch (l : Latch) : OneInteraction s (s.setLatch l) :=
  .of_silent ⟨fun _ => rfl, rfl, rfl, rfl, rfl, rfl⟩ rfl rfl

theorem oneInteraction_setUnlk (u : Bool) : OneInteraction s (s.setUnlk u) :=
  .of_silent ⟨fun _ => rfl, rfl, rfl, rfl, rfl, rfl⟩ rfl rfl

theorem oneInteraction_commandWrite (v : Byte) : OneInteraction s (s.commandWrite v) :=
  .of_silent ⟨fun _ => rfl, rfl, rfl, rfl, rfl, rfl⟩ rfl rfl

theorem oneInteraction_resetBlock : OneInteraction s s.resetBlock :=
  .of_silent ⟨fun _ => rfl, rfl, rfl, rfl, rfl, rfl⟩ rfl rfl

theorem oneInteraction_ret (b : Byte) : OneInteraction s (s.ret b) :=
  .of_returns ⟨fun _ => rfl, rfl, rfl, rfl, rfl, rfl⟩ rfl rfl

theorem oneInteraction_emit (e : Event) : OneInteraction s (s.emit e) :=
  .of_performs ⟨fun _ => rfl, rfl, rfl, rfl, rfl, rfl⟩ rfl rfl

theorem oneInteraction_driveEe (lines : EeLines) : OneInteraction s (s.driveEe lines) :=
  .of_performs ⟨fun _ => rfl, rfl, rfl, rfl, rfl, rfl⟩ rfl rfl

theorem oneInteraction_queryByte (q : Query) : OneInteraction s (s.queryByte q) :=
  .of_returns_performs ⟨fun _ => rfl, rfl, rfl, rfl, rfl, rfl⟩ rfl rfl

theorem oneInteraction_readEeDataOut : OneInteraction s s.readEeDataOut :=
  .of_returns_performs ⟨fun _ => rfl, rfl, rfl, rfl, rfl, rfl⟩ rfl rfl

/-- A read through the ROM path returns one byte, with or without the advance of the latch. -/
theorem oneInteraction_romReadPath (parity se : Bool) : OneInteraction s (s.romReadPath parity se) := by
  cases h : s.readArray with
  | false => rw [romReadPath_off s h]; exact oneInteraction_ret s 0
  | true =>
    rw [romReadPath_on s h]
    split
    · exact .of_returns ⟨fun _ => rfl, rfl, rfl, rfl, rfl, rfl⟩ rfl rfl
    · exact oneInteraction_ret s _

theorem oneInteraction_soundRead (off : BitVec 2) (n : Bool) : OneInteraction s (s.soundRead off n) := by
  rw [soundRead_eq]
  split
  · exact oneInteraction_queryByte s _
  · exact oneInteraction_ret s 0

theorem oneInteraction_soundWrite (off : BitVec 2) (v : Byte) : OneInteraction s (s.soundWrite off v) := by
  rw [soundWrite_eq]
  split
  · exact oneInteraction_emit s _
  · exact oneInteraction_refl s

/-- Every access completes (60_exceptions.md R150), as one interaction at most. -/
theorem exec_completes (i : Instr) : ∃ t, exec i s = .next t ∧ OneInteraction s t := by
  cases i with
  | flWlane0 | flWlane1 | flWlane2 | flWlane3 => exact ⟨_, rfl, oneInteraction_setLatch s _⟩
  | flWctrl => exact ⟨_, rfl, oneInteraction_setUnlk s _⟩
  | flWcmd v => exact ⟨_, rfl, oneInteraction_commandWrite s v⟩
  | flWnop | ioWnop47 | ioWnop8b | ioWnopd | ioWnopef => exact ⟨_, rfl, oneInteraction_refl s⟩
  | flRdlo | flRdhi => exact ⟨_, rfl, oneInteraction_romReadPath s _ _⟩
  | flRzero01 | flRzero47 | ioRzero47 | ioRzerocd | ioRzerof => exact ⟨_, rfl, oneInteraction_ret s 0⟩
  | ioSndw off v => exact ⟨_, rfl, oneInteraction_soundWrite s off v⟩
  | ioSndr off n => exact ⟨_, rfl, oneInteraction_soundRead s off n⟩
  | ioRin0 | ioRsys | ioRin1 | ioRin2 => exact ⟨_, rfl, oneInteraction_queryByte s _⟩
  | ioWee => exact ⟨_, rfl, oneInteraction_driveEe s _⟩
  | ioRee => exact ⟨_, rfl, oneInteraction_readEeDataOut s⟩

variable {s}

theorem exec_oneInteraction {i : Instr} (h : exec i s = .next t) : OneInteraction s t := by
  obtain ⟨u, hu, ho⟩ := exec_completes s i
  rw [hu] at h
  cases h
  exact ho

/-- A step either takes nothing and changes nothing, or takes one element of the host's sequence and is one
interaction at most from there. -/
theorem step_oneInteraction (h : step s = .next t) :
    (s.pending = [] ∧ t = s) ∨ ∃ x rest, s.pending = x :: rest ∧ OneInteraction (s.take rest) t := by
  obtain ⟨-, hp, rfl⟩ | ⟨rest, -, hp, rfl⟩ | ⟨w, rest, i, -, hp, -, he⟩ := step_cases h
  · exact .inl ⟨hp, rfl⟩
  · exact .inr ⟨_, rest, hp, oneInteraction_resetBlock _⟩
  · exact .inr ⟨_, rest, hp, exec_oneInteraction he⟩

end OneInteraction

/-! ## The invariant -/

/-- The element taken raises the position by one, which pays for the byte and the event of one interaction. -/
theorem State.inv.of_take {s t : State} {rest : List HostInput} (hs : s.inv) (h : OneInteraction (s.take rest) t) :
    t.inv := by
  obtain ⟨hv, hw, hin, hret, hev⟩ := hs
  obtain ⟨⟨-, hrom, hparams, -, hpos, -⟩, ⟨bs, hbs, hb⟩, es, hes, he⟩ := h
  simp only [take_rom, take_params, take_pos, take_returned, take_events] at hrom hparams hpos hbs hes
  refine ⟨hparams ▸ hv, hrom ▸ hw, by rw [hrom, hparams]; exact hin, ?_, ?_⟩
  · rw [hbs, hpos, List.length_append]; omega
  · rw [hes, hpos, List.length_append]; omega

/-- Settles O51: an idle step changes nothing, and every other step is one interaction after taking one element. -/
theorem stepKeepsTheInvariant : Obligations.StepKeepsTheInvariant := by
  intro s t hs h
  obtain ⟨-, rfl⟩ | ⟨_, _, -, ho⟩ := step_oneInteraction h
  · exact hs
  · exact hs.of_take ho

/-! ## Reset (00_scope.md R8) -/

/-- Settles O32: the step is `resetBlock` after taking the reset input. -/
theorem resetZeroesTheFlashElements : Obligations.ResetZeroesTheFlashElements := by
  intro s rest hv hp
  exact ⟨_, step_reset hv hp, resetBlock_latch _, resetBlock_fsm _, resetBlock_cmd _, resetBlock_unlk _,
    (resetBlock_pending _).trans (take_pending s rest)⟩

/-! ## The command machine sees latch-low16 only (00_scope.md R14) -/

@[simp] theorem commandWrite_fsm (s : State) (v : Byte) :
    (s.commandWrite v).fsm = nextFsm s.fsm v (low16 s.latch) := rfl

@[simp] theorem commandWrite_cmd (s : State) (v : Byte) :
    (s.commandWrite v).cmd = nextCmd s.fsm s.cmd v (low16 s.latch) := rfl

/-- Settles O23: the transition functions `nextFsm` and `nextCmd` take of the state `FSM`, `CMD` and latch-low16. -/
theorem upperLatchNeverAffectsTheCommandMachine : Obligations.UpperLatchNeverAffectsTheCommandMachine := by
  intro s s' v hlow hfsm hcmd
  refine ⟨_, _, exec_flWcmd s v, exec_flWcmd s' v, ?_, ?_⟩
  · rw [commandWrite_fsm, commandWrite_fsm, hfsm, low16, hlow]
  · rw [commandWrite_cmd, commandWrite_cmd, hfsm, hcmd, low16, hlow]

end Sys2Proof.Machine
end

section
/-! PROOF. The state of the block (10_state.md): what the host observes of an access, and which access changes which
element. Both are said once, for every access: the first as an equation for the returned bytes and the events
(`exec_observed`), the second as the list of the accesses that write the block (`exec_blockEffect`). -/

namespace Sys2Proof.Machine

/-! ## What the host observes of an access (10_state.md R28) -/

section Observation

variable (s : State)

/-- The byte that a data port returns: the selected byte in read-array mode, else 0 (41_flash_reads.md R100). -/
def State.dataPortByte (parity : Bool) : Byte := if s.readArray then s.romByte parity else 0

/-- The bytes that an access returns: none for a write, one for a read. -/
def State.bytesReturned : Instr → List Byte
  | .flRdlo _ => [s.dataPortByte false]
  | .flRdhi _ => [s.dataPortByte true]
  | .ioSndr off n => [(soundIndex s.params.soundMode off).elim 0 (fun i => s.draw (.sndRead i n))]
  | .ioRin0 _ => [s.draw (.sample .in0)]
  | .ioRsys _ => [s.draw (.sample .system)]
  | .ioRin1 _ => [s.draw (.sample .in1)]
  | .ioRin2 _ => [s.draw (.sample .in2)]
  | .ioRee _ => [eeDataByte ((s.draw .eeDataOut).getLsbD 0)]
  | .flRzero01 _ _ | .flRzero47 _ _ | .ioRzero47 _ _ | .ioRzerocd _ _ | .ioRzerof _ => [0]
  | .flWlane0 _ | .flWctrl _ | .flWlane1 _ | .flWcmd _ | .flWlane2 _ | .flWnop _ _ | .flWlane3 _ => []
  | .ioSndw _ _ | .ioWnop47 _ _ | .ioWnop8b _ _ | .ioWee _ | .ioWnopd _ | .ioWnopef _ _ => []

/-- What the host observes of `i` from `s` to `t`: the bytes that `i` returns, and its external events. -/
def Observed (i : Instr) (t : State) : Prop :=
  t.returned = s.returned ++ s.bytesReturned i ∧
    t.events = s.events ++ externalEffects s.params.soundMode i

@[simp] theorem romReadPath_returned (parity se : Bool) :
    (s.romReadPath parity se).returned = s.returned ++ [s.dataPortByte parity] := by
  cases h : s.readArray with
  | false => simp [romReadPath_off s h, State.dataPortByte, h]
  | true => rw [romReadPath_on s h]; split <;> simp [State.dataPortByte, h]

@[simp] theorem romReadPath_events (parity se : Bool) : (s.romReadPath parity se).events = s.events := by
  cases h : s.readArray with
  | false => rw [romReadPath_off s h, ret_events]
  | true => rw [romReadPath_on s h]; split <;> rfl

theorem soundRead_observed (off : BitVec 2) (n : Bool) : Observed s (.ioSndr off n) (s.soundRead off n) := by
  unfold Observed
  rw [soundRead_eq, State.bytesReturned, externalEffects]
  cases soundIndex s.params.soundMode off <;> simp

theorem soundWrite_observed (off : BitVec 2) (v : Byte) : Observed s (.ioSndw off v) (s.soundWrite off v) := by
  unfold Observed
  rw [soundWrite_eq, State.bytesReturned, externalEffects]
  cases soundIndex s.params.soundMode off <;> simp

/-- Every access completes and shows the host its `bytesReturned` and its `externalEffects`. -/
theorem exec_observed (i : Instr) : ∃ t, exec i s = .next t ∧ Observed s i t := by
  cases i with
  | flWlane0 | flWlane1 | flWlane2 | flWlane3 | flWctrl | flWcmd | flWnop | ioWnop47 | ioWnop8b | ioWnopd | ioWnopef =>
    exact ⟨_, rfl, (List.append_nil _).symm, (List.append_nil _).symm⟩
  | flRzero01 | flRzero47 | ioRzero47 | ioRzerocd | ioRzerof => exact ⟨_, rfl, rfl, (List.append_nil _).symm⟩
  | flRdlo | flRdhi =>
    exact ⟨_, rfl, romReadPath_returned s _ _, (romReadPath_events s _ _).trans (List.append_nil _).symm⟩
  | ioSndr off n => exact ⟨_, rfl, soundRead_observed s off n⟩
  | ioSndw off v => exact ⟨_, rfl, soundWrite_observed s off v⟩
  | ioRin0 | ioRsys | ioRin1 | ioRin2 | ioRee => exact ⟨_, rfl, rfl, rfl⟩
  | ioWee => exact ⟨_, rfl, (List.append_nil _).symm, rfl⟩

/-- No access returns a byte that depends on `FSM`. -/
theorem bytesReturned_setFsm (f : Fsm) (i : Instr) : (s.setFsm f).bytesReturned i = s.bytesReturned i := by
  cases i <;> rfl

/-- Outside read-array mode the data ports return 0, so changing `LATCH` changes no byte returned. -/
theorem bytesReturned_setLatch (h : s.readArray = false) (l : Latch) (i : Instr) :
    (s.setLatch l).bytesReturned i = s.bytesReturned i := by
  have hport (parity : Bool) : (s.setLatch l).dataPortByte parity = s.dataPortByte parity := by
    have hl : (s.setLatch l).readArray = false := h
    simp only [State.dataPortByte, h, hl, Bool.false_eq_true, if_false]
  cases i with
  | flRdlo => exact congrArg ([·]) (hport false)
  | flRdhi => exact congrArg ([·]) (hport true)
  | _ => rfl

variable {s}

/-- The host observes the same of an access from two states that agree in what it observed so far, in the sound mode
and in the bytes that the access returns. -/
theorem Observed.congr {s' t t' : State} {i : Instr} (h : Observed s i t) (h' : Observed s' i t')
    (hr : s'.returned = s.returned) (he : s'.events = s.events) (hp : s'.params = s.params)
    (hb : s'.bytesReturned i = s.bytesReturned i) : t'.returned = t.returned ∧ t'.events = t.events := by
  obtain ⟨hbytes, hevents⟩ := h
  obtain ⟨hbytes', hevents'⟩ := h'
  exact ⟨by rw [hbytes', hbytes, hr, hb], by rw [hevents', hevents, he, hp]⟩

end Observation

/-- Settles O26: by `exec_observed` the returned bytes and the events are `bytesReturned` and `externalEffects`, and
of these only the byte of a data port in read-array mode looks at `LATCH`, and none at `FSM`. -/
theorem hiddenStateShowsOnlyThroughReadArray : Obligations.HiddenStateShowsOnlyThroughReadArray := by
  intro i s l f
  obtain ⟨t, ht, ho⟩ := exec_observed s i
  obtain ⟨tl, htl, hol⟩ := exec_observed (s.setLatch l) i
  obtain ⟨tf, htf, hof⟩ := exec_observed (s.setFsm f) i
  obtain ⟨hbytes, hevents⟩ := ho.congr hof rfl rfl rfl (bytesReturned_setFsm s f i)
  refine ⟨t, tl, tf, ht, htl, htf, hbytes, hevents, fun hmode => ?_⟩
  have hoff : s.readArray = false := Bool.eq_false_iff.2 (mt (readArray_iff s).1 hmode)
  exact ho.congr hol rfl rfl rfl (bytesReturned_setLatch s hoff l i)

/-! ## Which access changes which element (10_state.md R20) -/

section Writers

variable {s t : State} {i : Instr}

/-- The access is a write of one of the four lanes. -/
def WritesLane (i : Instr) : Prop :=
  ∃ d, i = .flWlane0 d ∨ i = .flWlane1 d ∨ i = .flWlane2 d ∨ i = .flWlane3 d

/-- What an access does to the block: nothing, or the write of one of the writers of 10_state.md R20. -/
inductive BlockEffect (s : State) : Instr → State → Prop
  /-- The five elements stay the same. -/
  | unchanged {i : Instr} {t : State} (h : SameBlock s t) : BlockEffect s i t
  /-- A lane write. -/
  | lane {i : Instr} (h : WritesLane i) (l : Latch) : BlockEffect s i (s.setLatch l)
  /-- The ordinary odd read in read-array mode. -/
  | oddRead (h : s.readArray = true) :
    BlockEffect s (.flRdhi false) ((s.setLatch (s.latch + 1)).ret (s.romByte true))
  /-- The unlock-control write. -/
  | control (d : Byte) : BlockEffect s (.flWctrl d) (s.setUnlk (unlockFlagOf s.params d))
  /-- The command write. -/
  | command (v : Byte) : BlockEffect s (.flWcmd v) (s.commandWrite v)
  /-- The write of the EEPROM lines. -/
  | eeprom (d : Byte) : BlockEffect s (.ioWee d) (s.driveEe (eeLinesOf d))

theorem sameBlock_ret (s : State) (b : Byte) : SameBlock s (s.ret b) := ⟨⟨rfl, rfl, rfl, rfl⟩, rfl⟩

theorem sameBlock_soundRead (s : State) (off : BitVec 2) (n : Bool) : SameBlock s (s.soundRead off n) := by
  rw [soundRead_eq]
  split <;> exact ⟨⟨rfl, rfl, rfl, rfl⟩, rfl⟩

theorem sameBlock_soundWrite (s : State) (off : BitVec 2) (v : Byte) : SameBlock s (s.soundWrite off v) := by
  rw [soundWrite_eq]
  split <;> exact ⟨⟨rfl, rfl, rfl, rfl⟩, rfl⟩

/-- A data-port read that does not advance the latch: an even one, or a peek. -/
theorem sameBlock_romReadPath (s : State) {parity se : Bool} (h : (parity && se) = false) :
    SameBlock s (s.romReadPath parity se) := by
  cases hm : s.readArray with
  | false => rw [romReadPath_off s hm]; exact sameBlock_ret s 0
  | true => simp only [romReadPath_on s hm, h, Bool.false_eq_true, if_false]; exact sameBlock_ret s _

theorem blockEffect_oddRead (s : State) (n : Bool) :
    BlockEffect s (.flRdhi n) (s.romReadPath true (sideEffecting n)) := by
  cases n with
  | true => exact .unchanged (sameBlock_romReadPath s rfl)
  | false =>
    cases hm : s.readArray with
    | false => rw [romReadPath_off s hm]; exact .unchanged (sameBlock_ret s 0)
    | true => rw [romReadPath_on s hm]; exact .oddRead hm

/-- Every access has one of the effects of `BlockEffect`. -/
theorem exec_blockEffect (h : exec i s = .next t) : BlockEffect s i t := by
  cases i with
  | flWlane0 d => cases h; exact .lane ⟨d, .inl rfl⟩ _
  | flWlane1 d => cases h; exact .lane ⟨d, .inr (.inl rfl)⟩ _
  | flWlane2 d => cases h; exact .lane ⟨d, .inr (.inr (.inl rfl))⟩ _
  | flWlane3 d => cases h; exact .lane ⟨d, .inr (.inr (.inr rfl))⟩ _
  | flWctrl d => cases h; exact .control d
  | flWcmd v => cases h; exact .command v
  | flRdlo => cases h; exact .unchanged (sameBlock_romReadPath s rfl)
  | flRdhi n => cases h; exact blockEffect_oddRead s n
  | ioSndr off n => cases h; exact .unchanged (sameBlock_soundRead s off n)
  | ioSndw off v => cases h; exact .unchanged (sameBlock_soundWrite s off v)
  | ioWee d => cases h; exact .eeprom d
  | _ => cases h; exact .unchanged ⟨⟨rfl, rfl, rfl, rfl⟩, rfl⟩

/-! ### The writers of each element -/

theorem BlockEffect.latch_changed (h : BlockEffect s i t) (hne : t.latch ≠ s.latch) :
    WritesLane i ∨ (i = .flRdhi false ∧ s.cmd = 0xF0#8 ∧ s.unlk = true) := by
  cases h with
  | unchanged h =>
    obtain ⟨⟨hl, -, -, -⟩, -⟩ := h
    exact absurd hl hne
  | lane h => exact .inl h
  | oddRead h => exact .inr ⟨rfl, (readArray_iff s).1 h⟩
  | control | command | eeprom => exact absurd rfl hne

theorem BlockEffect.fsm_changed (h : BlockEffect s i t) (hne : t.fsm ≠ s.fsm) : ∃ v, i = .flWcmd v := by
  cases h with
  | unchanged h =>
    obtain ⟨⟨-, hf, -, -⟩, -⟩ := h
    exact absurd hf hne
  | command v => exact ⟨v, rfl⟩
  | lane | oddRead | control | eeprom => exact absurd rfl hne

/-- `CMD` changes in step 3 only, and becomes the byte written (40_flash_writes.md R87). -/
theorem nextCmd_changed {f : Fsm} {c v : Byte} {lo : BitVec 16} (h : nextCmd f c v lo ≠ c) :
    f = .unlock2 ∧ lo = 0x5555#16 ∧ nextCmd f c v lo = v := by
  cases f with
  | idle | unlock1 => exact absurd rfl h
  | unlock2 =>
    by_cases hlo : lo = 0x5555#16
    · exact ⟨rfl, hlo, if_pos hlo⟩
    · exact absurd (if_neg hlo) h

theorem BlockEffect.cmd_changed (h : BlockEffect s i t) (hne : t.cmd ≠ s.cmd) :
    ∃ v, i = .flWcmd v ∧ s.fsm = .unlock2 ∧ low16 s.latch = 0x5555#16 ∧ t.cmd = v := by
  cases h with
  | unchanged h =>
    obtain ⟨⟨-, -, hc, -⟩, -⟩ := h
    exact absurd hc hne
  | command v => exact ⟨v, rfl, nextCmd_changed hne⟩
  | lane | oddRead | control | eeprom => exact absurd rfl hne

theorem BlockEffect.unlk_changed (h : BlockEffect s i t) (hne : t.unlk ≠ s.unlk) : ∃ d, i = .flWctrl d := by
  cases h with
  | unchanged h =>
    obtain ⟨⟨-, -, -, hu⟩, -⟩ := h
    exact absurd hu hne
  | control d => exact ⟨d, rfl⟩
  | lane | oddRead | command | eeprom => exact absurd rfl hne

theorem BlockEffect.ee_changed (h : BlockEffect s i t) (hne : t.ee ≠ s.ee) : ∃ d, i = .ioWee d := by
  cases h with
  | unchanged h =>
    obtain ⟨-, he⟩ := h
    exact absurd he hne
  | eeprom d => exact ⟨d, rfl⟩
  | lane | oddRead | control | command => exact absurd rfl hne

/-! ### The same for a step -/

/-- A step leaves the block as it is, or takes the reset input, or takes an access, which has its effect on `s`. -/
theorem step_blockEffect (h : step s = .next t) :
    SameBlock s t ∨ (NextIsReset s ∧ t.ee = s.ee) ∨
      ∃ i rest, NextIsAccess s i ∧ BlockEffect (s.take rest) i t := by
  obtain ⟨-, -, rfl⟩ | ⟨rest, hv, hp, rfl⟩ | ⟨w, rest, i, hv, hp, hd, he⟩ := step_cases h
  · exact .inl ⟨⟨rfl, rfl, rfl, rfl⟩, rfl⟩
  · exact .inr (.inl ⟨⟨hv, rest, hp⟩, rfl⟩)
  · exact .inr (.inr ⟨i, rest, ⟨hv, w, rest, hp, hd⟩, exec_blockEffect he⟩)

/-- No step changes the ROM cells, the parameters or the known answers. -/
theorem step_keeps_constants (h : step s = .next t) : t.rom = s.rom ∧ t.params = s.params ∧ t.inputs = s.inputs := by
  obtain ⟨-, rfl⟩ | ⟨_, _, -, ⟨-, hrom, hparams, -, -, hinputs⟩, -, -⟩ := step_oneInteraction h
  · exact ⟨rfl, rfl, rfl⟩
  · exact ⟨hrom, hparams, hinputs⟩

end Writers

/-- Settles O28: a step that takes nothing changes no element, the reset input keeps `EE`, and an access changes an
element as one of its writers only. -/
theorem elementsChangeByTheirWritersOnly : Obligations.ElementsChangeByTheirWritersOnly := by
  intro s t h
  have hconst := step_keeps_constants h
  obtain ⟨⟨hl, hf, hc, hu⟩, he⟩ | ⟨hreset, he⟩ | ⟨i, rest, hi, hb⟩ := step_blockEffect h
  case inl => exact ⟨absurd hl, absurd hf, absurd hc, absurd hu, absurd he, hconst⟩
  case inr.inl =>
    exact ⟨fun _ => .inl hreset, fun _ => .inl hreset, fun _ => .inl hreset, fun _ => .inl hreset, absurd he, hconst⟩
  case inr.inr =>
    refine ⟨fun hne => .inr ?_, fun hne => .inr ?_, fun hne => .inr ?_, fun hne => .inr ?_, fun hne => ?_, hconst⟩
    · obtain ⟨d, hd⟩ | ⟨rfl, hmode⟩ := hb.latch_changed hne
      · exact .inl ⟨d, i, hi, hd⟩
      · exact .inr ⟨hi, hmode⟩
    · obtain ⟨v, rfl⟩ := hb.fsm_changed hne
      exact ⟨v, hi⟩
    · obtain ⟨v, rfl, hstep3⟩ := hb.cmd_changed hne
      exact ⟨v, hi, hstep3⟩
    · obtain ⟨d, rfl⟩ := hb.unlk_changed hne
      exact ⟨d, hi⟩
    · obtain ⟨d, rfl⟩ := hb.ee_changed hne
      exact ⟨d, hi⟩

end Sys2Proof.Machine
end

section
/-! PROOF. The memory of the block (20_memory.md): the latch as four byte lanes, which reads and writes change what,
one transition per step, and the ROM image, which no step changes and which is read in range only. -/

namespace Sys2Proof.Machine

/-! ## The latch as four lanes (20_memory.md R42) -/

section Lanes

variable (L : Layout) (d : Byte)

theorem decodeFlashWrite_lane0 : decodeFlashWrite L 0 d = .flWlane0 d := rfl
theorem decodeFlashWrite_lane1 : decodeFlashWrite L 2 d = .flWlane1 d := rfl
theorem decodeFlashWrite_lane2 : decodeFlashWrite L 4 d = .flWlane2 d := rfl
theorem decodeFlashWrite_lane3 : decodeFlashWrite L 6 d = .flWlane3 d := rfl

/-! A lane write sets its own byte and keeps the bytes below it. -/

theorem setLane0_low8 (l : Latch) (b : Byte) : (setLane0 l b).extractLsb' 0 8 = b :=
  BitVec.extractLsb'_append_eq_right

theorem setLane1_low16 (l : Latch) (b : Byte) : (setLane1 l b).extractLsb' 0 16 = b ++ l.extractLsb' 0 8 := by
  rw [setLane1, BitVec.append_assoc, BitVec.cast_eq]
  exact BitVec.extractLsb'_append_eq_right

theorem setLane2_low24 (l : Latch) (b : Byte) : (setLane2 l b).extractLsb' 0 24 = b ++ l.extractLsb' 0 16 := by
  rw [setLane2, BitVec.append_assoc, BitVec.cast_eq]
  exact BitVec.extractLsb'_append_eq_right

/-- Nothing of the old latch is left once all four lanes are replaced, and lane 0 is the least significant byte. -/
theorem setLanes_eq_append (l : Latch) (b0 b1 b2 b3 : Byte) :
    setLane3 (setLane2 (setLane1 (setLane0 l b0) b1) b2) b3 = b3 ++ b2 ++ b1 ++ b0 := by
  rw [setLane3, setLane2_low24, setLane1_low16, setLane0_low8, BitVec.append_assoc, BitVec.append_assoc,
    BitVec.cast_eq, BitVec.cast_eq]

/-- Four lane writes in turn are one assignment of the latch. -/
theorem exec_fourLaneWrites (s : State) (b0 b1 b2 b3 : Byte) : ∃ t1 t2 t3,
    exec (.flWlane0 b0) s = .next t1 ∧ exec (.flWlane1 b1) t1 = .next t2 ∧ exec (.flWlane2 b2) t2 = .next t3 ∧
    exec (.flWlane3 b3) t3 = .next (s.setLatch (b3 ++ b2 ++ b1 ++ b0)) := by
  refine ⟨_, _, _, exec_flWlane0 s b0, exec_flWlane1 _ b1, exec_flWlane2 _ b2, ?_⟩
  rw [exec_flWlane3, ← setLanes_eq_append s.latch]
  rfl

end Lanes

/-- Settles O2: the words decode by their offsets, and both sequences of writes are `exec_fourLaneWrites`. -/
theorem fourLaneWritesAssembleLittleEndian : Obligations.FourLaneWritesAssembleLittleEndian := by
  refine ⟨fun L d => ?_, fun s b0 b1 b2 b3 => ?_, fun s => ?_⟩
  · simp only [decode_flashWriteWord, decodeFlashWrite_lane0, decodeFlashWrite_lane1, decodeFlashWrite_lane2,
      decodeFlashWrite_lane3, and_self]
  · obtain ⟨t1, t2, t3, h0, h1, h2, h3⟩ := exec_fourLaneWrites s b0 b1 b2 b3
    exact ⟨t1, t2, t3, _, h0, h1, h2, h3, rfl, rfl, rfl, rfl, rfl, (oneInteraction_setLatch s _).surroundings⟩
  · obtain ⟨t1, t2, t3, h0, h1, h2, h3⟩ := exec_fourLaneWrites s 0x34 0x12 0 0
    exact ⟨t1, t2, t3, _, h0, h1, h2, h3, rfl⟩

/-! ## What reads and writes change (20_memory.md R47, R48) -/

section Changes

variable {s t : State} {i : Instr}

theorem decodeFlashRead_oddDataPort (L : Layout) (n : Bool) : decodeFlashRead L (L.data + 1) n = .flRdhi n := by
  have hne : L.data + 1 ≠ L.data := by simp
  rw [decodeFlashRead, if_neg hne, if_pos rfl]

/-- A read leaves the block as it is, unless it is the ordinary odd read in read-array mode. -/
theorem BlockEffect.sameBlock_of_isRead (h : BlockEffect s i t) (hread : i.isRead = true) :
    SameBlock s t ∨ (i = .flRdhi false ∧ s.cmd = 0xF0#8 ∧ s.unlk = true) := by
  cases h with
  | unchanged h => exact .inl h
  | oddRead h => exact .inr ⟨rfl, (readArray_iff s).1 h⟩
  | lane h => obtain ⟨d, rfl | rfl | rfl | rfl⟩ := h <;> cases hread
  | control | command | eeprom => cases hread

/-- The ordinary odd read in read-array mode advances the latch. -/
theorem exec_oddRead_latch (hmode : s.cmd = 0xF0#8 ∧ s.unlk = true) (h : exec (.flRdhi false) s = .next t) :
    t.latch = s.latch + 1 := by
  rw [exec_flRdhi, romReadPath_on s ((readArray_iff s).2 hmode)] at h
  cases h
  rfl

/-- A latch that has advanced is another one, so the block is not the same. -/
theorem not_sameBlock_of_latch_advanced (h : t.latch = s.latch + 1) : ¬SameBlock s t := by
  rintro ⟨⟨hlatch, -, -, -⟩, -⟩
  have hne : s.latch + 1 ≠ s.latch := by simp
  exact hne (h.symm.trans hlatch)

/-- A write returns no byte. -/
theorem bytesReturned_of_write (s : State) (hwrite : i.isRead = false) : s.bytesReturned i = [] := by
  cases i with
  | flWlane0 | flWctrl | flWlane1 | flWcmd | flWlane2 | flWnop | flWlane3 => rfl
  | ioSndw | ioWnop47 | ioWnop8b | ioWee | ioWnopd | ioWnopef => rfl
  | _ => cases hwrite

/-- Of the writes only a lane write changes the latch. -/
theorem BlockEffect.writesLane_of_write (h : BlockEffect s i t) (hwrite : i.isRead = false)
    (hne : t.latch ≠ s.latch) : WritesLane i := by
  obtain hlane | ⟨rfl, -⟩ := h.latch_changed hne
  · exact hlane
  · cases hwrite

end Changes

/-- Settles O12: by `BlockEffect.sameBlock_of_isRead` no other read changes the block, and the odd read does, since it
advances the latch. -/
theorem oneReadChangesTheBlock : Obligations.OneReadChangesTheBlock := by
  refine ⟨fun L n => ?_, fun i s hread => ?_⟩
  · rw [decode_flashReadWord, decodeFlashRead_oddDataPort]
  · obtain ⟨t, ht, -, hevents⟩ := exec_observed s i
    refine ⟨t, ht, ⟨fun hdiff => ?_, ?_⟩, ?_, hevents, (exec_oneInteraction ht).surroundings⟩
    · exact ((exec_blockEffect ht).sameBlock_of_isRead hread).resolve_left hdiff
    · rintro ⟨rfl, hmode⟩
      exact not_sameBlock_of_latch_advanced (exec_oddRead_latch hmode ht)
    · rintro rfl hcmd hunlk
      exact exec_oddRead_latch ⟨hcmd, hunlk⟩ ht

/-- Settles O13: `exec_observed` says what a write returns and sends out, and `BlockEffect` which element it writes. -/
theorem writesChangeTheirElementOnly : Obligations.WritesChangeTheirElementOnly := by
  intro i s hwrite
  obtain ⟨t, ht, hbytes, hevents⟩ := exec_observed s i
  have heffect := exec_blockEffect ht
  have hnone : ReturnsNothing s t := by
    rw [ReturnsNothing, hbytes, bytesReturned_of_write s hwrite, List.append_nil]
  refine ⟨t, ht, hnone, hevents, (exec_oneInteraction ht).surroundings, heffect.writesLane_of_write hwrite,
    heffect.unlk_changed, ?_, heffect.ee_changed⟩
  rintro (hfsm | hcmd)
  · exact heffect.fsm_changed hfsm
  · obtain ⟨v, hv, -⟩ := heffect.cmd_changed hcmd
    exact ⟨v, hv⟩

/-! ## One transition per step (20_memory.md R49) -/

/-- Settles O22: by `step_oneInteraction` a step is idle, or one interaction after taking the head of the sequence. -/
theorem eachStepIsOneTransition : Obligations.EachStepIsOneTransition := by
  intro s t h
  obtain ⟨hp, rfl⟩ | ⟨x, rest, hp, ho⟩ := step_oneInteraction h
  case inl =>
    obtain ⟨-, hbytes, hevents⟩ := oneInteraction_refl t
    exact ⟨hbytes, hevents, by rw [hp, List.tail_nil], (if_pos hp).symm⟩
  case inr =>
    obtain ⟨⟨-, -, -, hpending, hpos, -⟩, hbytes, hevents⟩ := ho
    exact ⟨hbytes, hevents, by rw [hpending, hp, List.tail_cons, take_pending],
      by rw [hpos, hp, take_pos, if_neg (List.cons_ne_nil x rest)]⟩

/-! ## The ROM image (20_memory.md R41) -/

/-- A run of one step more that answers a next state began with a step that did. -/
theorem runSteps_succ_next {k : Nat} {s u : State} (h : runSteps (k + 1) s = .next u) :
    ∃ t, step s = .next t ∧ runSteps k t = .next u := by
  cases hs : step s with
  | next t => exact ⟨t, rfl, (runSteps_succ k hs).symm.trans h⟩
  | fault r => cases r
  | refused r =>
    have hc : Sys2Proof.core.step s = .refused r := hs
    simp only [runSteps, Host.Core.run, hc] at h
    cases h

/-- What every step keeps, every run keeps. -/
theorem runSteps_keeps (p : State → Prop) (hstep : ∀ {s t}, step s = .next t → p s → p t) (k : Nat) :
    ∀ {s t}, runSteps k s = .next t → p s → p t := by
  induction k with
  | zero =>
    intro s t h hs
    cases h
    exact hs
  | succ k ih =>
    intro s u h hs
    obtain ⟨t, ht, hrun⟩ := runSteps_succ_next h
    exact ih hrun (hstep ht hs)

/-- The image and the parameters are those of `s`. -/
def SameRomAndParams (s t : State) : Prop := t.rom = s.rom ∧ t.params = s.params

theorem SameRomAndParams.step {s t u : State} (h : Machine.step t = .next u) (hs : SameRomAndParams s t) :
    SameRomAndParams s u := by
  obtain ⟨hrom, hparams, -⟩ := step_keeps_constants h
  obtain ⟨hrom0, hparams0⟩ := hs
  exact ⟨hrom.trans hrom0, hparams.trans hparams0⟩

theorem romSize_pos (p : Params) : 0 < p.romSize := Nat.two_pow_pos _

/-- The mask keeps the address at or below `ROM_SIZE - 1`. -/
theorem romAddress_lt_romSize (p : Params) (l : Latch) (parity : Bool) :
    (romAddress p l parity).toNat < p.romSize := by
  have hmask : (romAddress p l parity).toNat ≤ p.romSize - 1 := by
    rw [romAddress, BitVec.toNat_and, BitVec.toNat_ofNat]
    exact Nat.and_le_right.trans (Nat.mod_le _ _)
  have hpos := romSize_pos p
  omega

/-- Settles O30: every step keeps the cells and the parameters, so every run does, and the mask bounds the address. -/
theorem romImageIsConstantAndReadInRange : Obligations.RomImageIsConstantAndReadInRange := by
  refine ⟨fun k s t h => ?_, fun s parity => romAddress_lt_romSize s.params s.latch parity⟩
  obtain ⟨hrom, hparams⟩ := runSteps_keeps (SameRomAndParams s) SameRomAndParams.step k h ⟨rfl, rfl⟩
  exact ⟨fun a => by rw [hrom], hparams⟩

end Sys2Proof.Machine
end

section
/-! PROOF. The encoding (30_encoding.md): which words are reserved, what the decoder does not look at, the opcode map,
and the round trips between words and accesses. The four decoders are inverted once each (`ReadsBack`), and from
them `decode` (`decode_ok_readsBack`). -/

namespace Sys2Proof

/-! ## Encode, then decode (30_encoding.md R61 to R66, R71) -/

/-- The round trip of every access, from the lemma of its row. -/
theorem roundTrip : ∀ i : Instr, Laws.RoundTrip.Statement i
  | .flWlane0 d => Laws.RoundTrip.flWlane0 d
  | .flWctrl d => Laws.RoundTrip.flWctrl d
  | .flWlane1 d => Laws.RoundTrip.flWlane1 d
  | .flWcmd d => Laws.RoundTrip.flWcmd d
  | .flWlane2 d => Laws.RoundTrip.flWlane2 d
  | .flWnop off d => Laws.RoundTrip.flWnop off d
  | .flWlane3 d => Laws.RoundTrip.flWlane3 d
  | .flRzero01 off n => Laws.RoundTrip.flRzero01 off n
  | .flRdlo n => Laws.RoundTrip.flRdlo n
  | .flRdhi n => Laws.RoundTrip.flRdhi n
  | .flRzero47 off n => Laws.RoundTrip.flRzero47 off n
  | .ioSndw i d => Laws.RoundTrip.ioSndw i d
  | .ioWnop47 o d => Laws.RoundTrip.ioWnop47 o d
  | .ioWnop8b o d => Laws.RoundTrip.ioWnop8b o d
  | .ioWee d => Laws.RoundTrip.ioWee d
  | .ioWnopd d => Laws.RoundTrip.ioWnopd d
  | .ioWnopef o d => Laws.RoundTrip.ioWnopef o d
  | .ioSndr i n => Laws.RoundTrip.ioSndr i n
  | .ioRzero47 o n => Laws.RoundTrip.ioRzero47 o n
  | .ioRin0 n => Laws.RoundTrip.ioRin0 n
  | .ioRsys n => Laws.RoundTrip.ioRsys n
  | .ioRin1 n => Laws.RoundTrip.ioRin1 n
  | .ioRin2 n => Laws.RoundTrip.ioRin2 n
  | .ioRzerocd o n => Laws.RoundTrip.ioRzerocd o n
  | .ioRee n => Laws.RoundTrip.ioRee n
  | .ioRzerof n => Laws.RoundTrip.ioRzerof n

/-- Settles O44: the round trip of each row, for every operand. -/
theorem decodeUndoesEncode : Obligations.DecodeUndoesEncode := fun L i => roundTrip i L

/-- An odd flash offset that is neither write port is one that FL.WNOP stands for. -/
theorem wnopOffset_of_odd {L : Layout} {off : BitVec 3} (hodd : off.getLsbD 0 = true) (hctrl : off ≠ L.ctrl)
    (hcmd : off ≠ L.cmd) : L.wnopOffset off = true := by
  simp only [Layout.wnopOffset, hodd, bne_iff_ne.2 hctrl, bne_iff_ne.2 hcmd, Bool.and_self]

/-- Settles O49: each clause is the round trip of one access, and `encode` gives its word. -/
theorem flashDecodersFollowTheLayout : Obligations.FlashDecodersFollowTheLayout := by
  intro L d n hv
  exact ⟨roundTrip (.flWlane0 d) L hv rfl, roundTrip (.flWlane1 d) L hv rfl, roundTrip (.flWlane2 d) L hv rfl,
    roundTrip (.flWlane3 d) L hv rfl, roundTrip (.flWctrl d) L hv rfl, roundTrip (.flWcmd d) L hv rfl,
    fun off hodd hctrl hcmd => roundTrip (.flWnop off d) L hv (wnopOffset_of_odd hodd hctrl hcmd),
    roundTrip (.flRdlo n) L hv rfl, roundTrip (.flRdhi n) L hv rfl⟩

/-! ## The reserved words (30_encoding.md R67) -/

/-- The decoder refuses exactly the reserved words, by their names. -/
theorem decode_error_iff {L : Layout} {w : Txn} {r : ReservedWord} :
    decode L w = .error r ↔ w.reserved = some r := by
  unfold decode
  cases w.reserved <;> simp

/-- Bit 3 of `OFF` is bit 11 of the word. -/
theorem Txn.off_getLsbD_three (w : Txn) : w.off.getLsbD 3 = w.getLsbD 11 := by
  simp [Txn.off]

/-- What each name means, and when a word has none: the conditions exclude each other, in the order of the table. -/
theorem Txn.reserved_spec (w : Txn) :
    (w.reserved = some .reservedZ ↔ w.reservedBit = true) ∧
    (w.reserved = some .outsideFlashWindow ↔
      w.reservedBit = false ∧ w.isIo = false ∧ w.off.getLsbD 3 = true) ∧
    (w.reserved = some .peekOnWrite ↔
      w.reservedBit = false ∧ ¬(w.isIo = false ∧ w.off.getLsbD 3 = true) ∧ w.isWrite = true ∧ w.peek = true) ∧
    (w.reserved = none ↔
      w.reservedBit = false ∧ ¬(w.isIo = false ∧ w.off.getLsbD 3 = true) ∧ ¬(w.isWrite = true ∧ w.peek = true)) := by
  simp only [Txn.reserved, Bool.and_eq_true, Bool.not_eq_true']
  split_ifs with hz hflash hpeek
  · simp [hz]
  · simp [hz, hflash]
  · simp only [hz, hflash, hpeek]; simp
  · simp only [hz, hflash, hpeek]; simp

/-- Settles O47: `Txn.reserved` tests the three conditions in the order of the table. -/
theorem reservedWordsAreRefusedByName : Obligations.ReservedWordsAreRefusedByName := by
  intro L w
  rw [decode_error_iff, decode_error_iff, decode_error_iff, ← Txn.off_getLsbD_three]
  obtain ⟨hz, hflash, hpeek, -⟩ := w.reserved_spec
  exact ⟨hz, hflash, hpeek⟩

/-! ## The two bytes of a word: only the upper one selects an access (30_encoding.md R61, R68) -/

section Bytes

variable (u : BitVec 8) (d : Byte)

/-- A word is its upper byte and `DATA`. -/
theorem Txn.eq_append (w : Txn) : w = w.extractLsb' 8 8 ++ w.data :=
  (BitVec.extractLsb'_append_extractLsb' (w := 8) (len := 8) (x := w)).symm

/-- Bit `k + 8` of a word is bit `k` of its upper byte. -/
theorem append_getLsbD (k : Nat) : (u ++ d).getLsbD (k + 8) = u.getLsbD k := by
  rw [BitVec.getLsbD_append, if_neg (by omega), Nat.add_sub_cancel]

@[simp] theorem append_isWrite : Txn.isWrite (u ++ d) = u.getLsbD 7 := append_getLsbD u d 7

@[simp] theorem append_isIo : Txn.isIo (u ++ d) = u.getLsbD 6 := append_getLsbD u d 6

@[simp] theorem append_peek : Txn.peek (u ++ d) = u.getLsbD 5 := append_getLsbD u d 5

@[simp] theorem append_reservedBit : Txn.reservedBit (u ++ d) = u.getLsbD 4 := append_getLsbD u d 4

@[simp] theorem append_off : Txn.off (u ++ d) = u.extractLsb' 0 4 :=
  BitVec.extractLsb'_append_eq_of_le (Nat.le_refl 8)

@[simp] theorem append_flashOff : Txn.flashOff (u ++ d) = u.extractLsb' 0 3 :=
  BitVec.extractLsb'_append_eq_of_le (Nat.le_refl 8)

@[simp] theorem append_data : Txn.data (u ++ d) = d := BitVec.extractLsb'_append_eq_right

/-- `DATA` plays no part in whether a word is reserved. -/
theorem reserved_append (d' : Byte) : Txn.reserved (u ++ d) = Txn.reserved (u ++ d') := by
  simp only [Txn.reserved, append_isWrite, append_isIo, append_peek, append_reservedBit, append_off]

/-- `DATA` plays no part in what a read decodes to. -/
theorem decode_append_of_read (L : Layout) (d' : Byte) (hread : u.getLsbD 7 = false) :
    decode L (u ++ d) = decode L (u ++ d') := by
  simp only [decode, reserved_append u d d', append_isWrite, append_isIo, append_peek, append_off, append_flashOff,
    hread]
  cases u.getLsbD 6 <;> rfl

/-- Masking the lower byte writes `DATA` as 0. -/
theorem append_and_upper : (u ++ d : Txn) &&& 0xFF00#16 = u ++ 0#8 := by
  have hmask : 0xFF00#16 = BitVec.allOnes 8 ++ 0#8 := rfl
  rw [hmask, BitVec.and_append, BitVec.and_allOnes, BitVec.and_zero]

end Bytes

/-- Settles O48: the two words are one upper byte with two bytes of `DATA`. -/
theorem readsIgnoreData : Obligations.ReadsIgnoreData := by
  intro L w w' hread hupper
  rw [w.eq_append] at hread ⊢
  rw [w'.eq_append, hupper]
  exact decode_append_of_read _ _ L _ ((append_isWrite _ _).symm.trans hread)

/-! ## The opcode map (30_encoding.md section 3, R67) -/

/-- The mnemonics of the rows that a word selects. -/
def selectedMnemonics (w : Txn) : List String :=
  (opcodeRows.filter (fun r => r.selects w)).map (fun r => r.mnemonic)

/-- The mnemonic of what a word decodes to under the reference layout, none where it is reserved. -/
def decodedMnemonics (w : Txn) : List String :=
  match decode Layout.reference w with
  | .ok i => [i.mnemonic]
  | .error _ => []

/-- The mask of every row is in the upper byte. -/
theorem opcodeRows_mask : ∀ r ∈ opcodeRows, r.mask = r.mask.extractLsb' 8 8 ++ 0#8 := by decide

theorem selects_append (u : BitVec 8) (d d' : Byte) {r : OpcodeRow} (hr : r ∈ opcodeRows) :
    r.selects (u ++ d) = r.selects (u ++ d') := by
  rw [OpcodeRow.selects, OpcodeRow.selects, opcodeRows_mask r hr, BitVec.and_append, BitVec.and_append,
    BitVec.and_zero, BitVec.and_zero]

theorem selectedMnemonics_append (u : BitVec 8) (d d' : Byte) :
    selectedMnemonics (u ++ d) = selectedMnemonics (u ++ d') := by
  rw [selectedMnemonics, selectedMnemonics, List.filter_congr fun r hr => selects_append u d d' hr]

/-- The byte written plays no part in which row a flash write is. -/
theorem mnemonic_decodeFlashWrite (L : Layout) (off : BitVec 3) (d d' : Byte) :
    (decodeFlashWrite L off d).mnemonic = (decodeFlashWrite L off d').mnemonic := by
  simp only [decodeFlashWrite, apply_ite Instr.mnemonic]
  rfl

/-- The byte written plays no part in which row an I/O write is. -/
theorem mnemonic_decodeIoWrite (off : BitVec 4) (d d' : Byte) :
    (decodeIoWrite off d).mnemonic = (decodeIoWrite off d').mnemonic := by
  simp only [decodeIoWrite, apply_ite Instr.mnemonic]
  rfl

theorem decodedMnemonics_append (u : BitVec 8) (d d' : Byte) :
    decodedMnemonics (u ++ d) = decodedMnemonics (u ++ d') := by
  simp only [decodedMnemonics, decode, reserved_append u d d', append_isWrite, append_isIo, append_peek, append_off,
    append_flashOff, append_data]
  cases Txn.reserved (u ++ d') with
  | some r => rfl
  | none =>
    cases u.getLsbD 6 <;> cases u.getLsbD 7
    · rfl
    · simp only [mnemonic_decodeFlashWrite Layout.reference _ d d']
    · rfl
    · simp only [mnemonic_decodeIoWrite _ d d']

/-- The map and the decoder agree on every upper byte. -/
theorem selectedMnemonics_upper : ∀ u : BitVec 8, selectedMnemonics (u ++ 0#8) = decodedMnemonics (u ++ 0#8) := by
  decide

/-- Settles O46: neither side looks at `DATA`, and they agree on every upper byte. -/
theorem opcodeMapSelectsTheDecodedRow : Obligations.OpcodeMapSelectsTheDecodedRow := by
  intro w
  have hagree : selectedMnemonics w = decodedMnemonics w := by
    rw [w.eq_append, selectedMnemonics_append _ _ 0#8, decodedMnemonics_append _ _ 0#8,
      selectedMnemonics_upper]
  exact hagree

/-! ## Decode, then encode (30_encoding.md R67, R68) -/

/-- The access is well-formed, has the given direction, and is encoded as the given word. -/
structure ReadsBack (L : Layout) (word : Txn) (read : Bool) (i : Instr) : Prop where
  wellFormed : i.wellFormed L = true
  isRead : i.isRead = read
  encode_eq : encode L i = word

section Decoders

variable (L : Layout)

/-- The lane index tells the even flash offsets apart. -/
theorem even_flashOff_cases : ∀ off : BitVec 3, off.getLsbD 0 = false →
    (laneIndex off = 0 → off = 0) ∧ (laneIndex off = 1 → off = 2) ∧ (laneIndex off = 2 → off = 4) ∧
    (laneIndex off ≠ 0 → laneIndex off ≠ 1 → laneIndex off ≠ 2 → off = 6) := by decide

theorem decodeFlashWrite_readsBack (off : BitVec 3) (d : Byte) :
    ReadsBack L (flashWriteWord off d) false (decodeFlashWrite L off d) := by
  unfold decodeFlashWrite
  split
  next hodd =>
    split_ifs with hctrl hcmd
    · exact ⟨rfl, rfl, by rw [hctrl, encode]⟩
    · exact ⟨rfl, rfl, by rw [hcmd, encode]⟩
    · exact ⟨wnopOffset_of_odd hodd hctrl hcmd, rfl, rfl⟩
  next heven =>
    obtain ⟨h0, h1, h2, h3⟩ := even_flashOff_cases off (Bool.eq_false_iff.2 heven)
    split_ifs with l0 l1 l2
    · exact ⟨rfl, rfl, by rw [h0 l0, encode]⟩
    · exact ⟨rfl, rfl, by rw [h1 l1, encode]⟩
    · exact ⟨rfl, rfl, by rw [h2 l2, encode]⟩
    · exact ⟨rfl, rfl, by rw [h3 l0 l1 l2, encode]⟩

theorem isDataPort_false {L : Layout} {off : BitVec 3} (hlo : off ≠ L.data) (hhi : off ≠ L.data + 1) :
    L.isDataPort off = false := by
  rw [Layout.isDataPort, beq_eq_false_iff_ne.2 hlo, beq_eq_false_iff_ne.2 hhi, Bool.or_self]

theorem decodeFlashRead_readsBack (off : BitVec 3) (n : Bool) :
    ReadsBack L (flashReadWord off n) true (decodeFlashRead L off n) := by
  unfold decodeFlashRead
  split_ifs with hlo hhi hhalf
  · exact ⟨rfl, rfl, by rw [hlo, encode]⟩
  · exact ⟨rfl, rfl, by rw [hhi, encode]⟩
  · exact ⟨by rw [Instr.wellFormed, Layout.rzero47Offset, hhalf, isDataPort_false hlo hhi]; rfl, rfl, rfl⟩
  · exact ⟨by rw [Instr.wellFormed, Layout.rzero01Offset, Bool.eq_false_iff.2 hhalf, isDataPort_false hlo hhi]; rfl,
      rfl, rfl⟩

/-! The ranges of the I/O offset, each from its fixed high bits and the free low ones. -/

theorem ioOffset_0to3 {off : BitVec 4} : off ≤ 0x3#4 → 0b00#2 ++ off.extractLsb' 0 2 = off := by
  revert off; decide

theorem ioOffset_4to7 {off : BitVec 4} : ¬off ≤ 0x3#4 → off ≤ 0x7#4 → 0b01#2 ++ off.extractLsb' 0 2 = off := by
  revert off; decide

theorem ioOffset_8toB {off : BitVec 4} : ¬off ≤ 0x7#4 → off ≤ 0xB#4 → 0b10#2 ++ off.extractLsb' 0 2 = off := by
  revert off; decide

theorem ioOffset_CtoD {off : BitVec 4} : ¬off ≤ 0x7#4 → off ≠ 0x8#4 → off ≠ 0x9#4 → off ≠ 0xA#4 → off ≠ 0xB#4 →
    off ≤ 0xD#4 → 0b110#3 ++ off.extractLsb' 0 1 = off := by
  revert off; decide

theorem ioOffset_EtoF {off : BitVec 4} : ¬off ≤ 0xB#4 → off ≠ 0xC#4 → off ≠ 0xD#4 →
    0b111#3 ++ off.extractLsb' 0 1 = off := by
  revert off; decide

theorem ioOffset_F {off : BitVec 4} : ¬off ≤ 0xD#4 → off ≠ 0xE#4 → off = 0xF#4 := by
  revert off; decide

theorem decodeIoWrite_readsBack (off : BitVec 4) (d : Byte) :
    ReadsBack L (ioWriteWord off d) false (decodeIoWrite off d) := by
  unfold decodeIoWrite
  split_ifs with h3 h7 hB hC hD
  · exact ⟨rfl, rfl, by rw [encode, ioOffset_0to3 h3]⟩
  · exact ⟨rfl, rfl, by rw [encode, ioOffset_4to7 h3 h7]⟩
  · exact ⟨rfl, rfl, by rw [encode, ioOffset_8toB h7 hB]⟩
  · exact ⟨rfl, rfl, by rw [hC]; rfl⟩
  · exact ⟨rfl, rfl, by rw [hD]; rfl⟩
  · exact ⟨rfl, rfl, by rw [encode, ioOffset_EtoF hB hC hD]⟩

theorem decodeIoRead_readsBack (off : BitVec 4) (n : Bool) :
    ReadsBack L (ioReadWord off n) true (decodeIoRead off n) := by
  unfold decodeIoRead
  split_ifs with h3 h7 h8 h9 hA hB hD hE
  · exact ⟨rfl, rfl, by rw [encode, ioOffset_0to3 h3]⟩
  · exact ⟨rfl, rfl, by rw [encode, ioOffset_4to7 h3 h7]⟩
  · exact ⟨rfl, rfl, by rw [h8]; rfl⟩
  · exact ⟨rfl, rfl, by rw [h9]; rfl⟩
  · exact ⟨rfl, rfl, by rw [hA]; rfl⟩
  · exact ⟨rfl, rfl, by rw [hB]; rfl⟩
  · exact ⟨rfl, rfl, by rw [encode, ioOffset_CtoD h7 h8 h9 hA hB hD]⟩
  · exact ⟨rfl, rfl, by rw [hE]; rfl⟩
  · exact ⟨rfl, rfl, by rw [ioOffset_F hD hE]; rfl⟩

end Decoders

/-! ### A word from its fields -/

theorem ofBool_getLsbD (w : Txn) (k : Nat) : BitVec.ofBool (w.getLsbD k) = w.extractLsb' k 1 := by
  ext j hj
  obtain rfl : j = 0 := by omega
  simp

/-- A word with `Z` = 0 is assembled from its fields. -/
theorem mkTxn_fields {w : Txn} (hz : w.reservedBit = false) :
    mkTxn w.isWrite w.isIo w.peek w.off w.data = w := by
  have hz1 : 0#1 = w.extractLsb' 12 1 := by rw [← ofBool_getLsbD w 12]; exact (congrArg BitVec.ofBool hz).symm
  simp only [mkTxn, Txn.isWrite, Txn.isIo, Txn.peek, Txn.off, Txn.data, ofBool_getLsbD, hz1,
    BitVec.extractLsb'_append_extractLsb'_eq_extractLsb', BitVec.extractLsb'_eq_self]

/-- Offset 0 to 7 of a word is its flash offset. -/
theorem Txn.off_eq_flashOff {w : Txn} (h : w.off.getLsbD 3 = false) : w.off = 0#1 ++ w.flashOff := by
  have hlow : ∀ o : BitVec 4, o.getLsbD 3 = false → o = 0#1 ++ o.extractLsb' 0 3 := by decide
  rw [Txn.flashOff_eq]
  exact hlow w.off h

theorem mkTxn_and_upper (write io n : Bool) (off : BitVec 4) (d : Byte) :
    mkTxn write io n off d &&& 0xFF00#16 = mkTxn write io n off 0 := append_and_upper _ d

section Words

variable {w : Txn} (hres : w.reserved = none)

include hres

theorem Txn.fields_of_not_reserved : w.reservedBit = false ∧ ¬(w.isIo = false ∧ w.off.getLsbD 3 = true) ∧
    ¬(w.isWrite = true ∧ w.peek = true) := by
  obtain ⟨-, -, -, hnone⟩ := w.reserved_spec
  exact hnone.1 hres

/-- A word that is not reserved is assembled from its other fields. -/
theorem Txn.eq_mkTxn_of_not_reserved : w = mkTxn w.isWrite w.isIo w.peek w.off w.data := by
  obtain ⟨hz, -, -⟩ := Txn.fields_of_not_reserved hres
  exact (mkTxn_fields hz).symm

theorem Txn.off_of_flash (hio : w.isIo = false) : w.off = 0#1 ++ w.flashOff := by
  obtain ⟨-, hflash, -⟩ := Txn.fields_of_not_reserved hres
  exact Txn.off_eq_flashOff (Bool.eq_false_iff.2 fun h => hflash ⟨hio, h⟩)

theorem Txn.peek_of_write (hwrite : w.isWrite = true) : w.peek = false := by
  obtain ⟨-, -, hpeek⟩ := Txn.fields_of_not_reserved hres
  exact Bool.eq_false_iff.2 fun h => hpeek ⟨hwrite, h⟩

theorem Txn.eq_flashWriteWord (hwrite : w.isWrite = true) (hio : w.isIo = false) :
    w = flashWriteWord w.flashOff w.data := by
  rw [flashWriteWord, ← Txn.off_of_flash hres hio]
  conv_lhs => rw [Txn.eq_mkTxn_of_not_reserved hres, hwrite, hio, Txn.peek_of_write hres hwrite]

theorem Txn.eq_ioWriteWord (hwrite : w.isWrite = true) (hio : w.isIo = true) : w = ioWriteWord w.off w.data := by
  conv_lhs => rw [Txn.eq_mkTxn_of_not_reserved hres, hwrite, hio, Txn.peek_of_write hres hwrite, ← ioWriteWord]

theorem Txn.and_upper_eq_flashReadWord (hread : w.isWrite = false) (hio : w.isIo = false) :
    w &&& 0xFF00#16 = flashReadWord w.flashOff w.peek := by
  rw [flashReadWord, ← Txn.off_of_flash hres hio]
  conv_lhs => rw [Txn.eq_mkTxn_of_not_reserved hres, mkTxn_and_upper, hread, hio]

theorem Txn.and_upper_eq_ioReadWord (hread : w.isWrite = false) (hio : w.isIo = true) :
    w &&& 0xFF00#16 = ioReadWord w.off w.peek := by
  conv_lhs => rw [Txn.eq_mkTxn_of_not_reserved hres, mkTxn_and_upper, hread, hio, ← ioReadWord]

end Words

/-- A read decodes like the same word with `DATA` written as 0. -/
theorem decode_and_upper (L : Layout) {w : Txn} (hread : w.isWrite = false) :
    decode L (w &&& 0xFF00#16) = decode L w := by
  have hupper : (w &&& 0xFF00#16).extractLsb' 8 8 = w.extractLsb' 8 8 := by
    rw [w.eq_append, append_and_upper, BitVec.extractLsb'_append_eq_left, BitVec.extractLsb'_append_eq_left]
  exact readsIgnoreData L w _ hread hupper

/-- A decoded write reads back as its word, a decoded read as its word with `DATA` written as 0. -/
theorem decode_ok_readsBack {L : Layout} {w : Txn} {i : Instr} (h : decode L w = .ok i) :
    ReadsBack L w false i ∨ ReadsBack L (w &&& 0xFF00#16) true i := by
  have hres : w.reserved = none := by
    cases hr : w.reserved with
    | none => rfl
    | some r => rw [decode_error_iff.2 hr] at h; cases h
  cases hwrite : w.isWrite with
  | true =>
    left
    cases hio : w.isIo with
    | false =>
      rw [Txn.eq_flashWriteWord hres hwrite hio] at h ⊢
      cases (decode_flashWriteWord _ _ _).symm.trans h
      exact decodeFlashWrite_readsBack L _ _
    | true =>
      rw [Txn.eq_ioWriteWord hres hwrite hio] at h ⊢
      cases (decode_ioWriteWord _ _ _).symm.trans h
      exact decodeIoWrite_readsBack L _ _
  | false =>
    right
    rw [← decode_and_upper L hwrite] at h
    cases hio : w.isIo with
    | false =>
      rw [Txn.and_upper_eq_flashReadWord hres hwrite hio] at h ⊢
      cases (decode_flashReadWord _ _ _).symm.trans h
      exact decodeFlashRead_readsBack L _ _
    | true =>
      rw [Txn.and_upper_eq_ioReadWord hres hwrite hio] at h ⊢
      cases (decode_ioReadWord _ _ _).symm.trans h
      exact decodeIoRead_readsBack L _ _

/-- Settles O45: by `decode_ok_readsBack`, where the direction of the access is that of the word. -/
theorem encodeUndoesDecode : Obligations.EncodeUndoesDecode := by
  intro L w i _ h
  obtain ⟨hwf, hdir, henc⟩ | ⟨hwf, hdir, henc⟩ := decode_ok_readsBack h
  · exact ⟨hwf, by rw [hdir]; exact henc⟩
  · exact ⟨hwf, by rw [hdir]; exact henc⟩

/-! ## One step (30_encoding.md R70) -/

/-- Settles O31: taking the word is the update of the two fields that the statement writes out. -/
theorem stepRunsTheDecodedAccess : Obligations.StepRunsTheDecodedAccess :=
  fun _ _ _ _ hv hp hd => Machine.step_access hv hp hd

end Sys2Proof
end

section
/-! PROOF. The flash window's writes (40_flash_writes.md): the lane writes bit by bit, the command machine and the
unlock flag, and the words of `UNLOCKCMD`. -/

namespace Sys2Proof.Machine

/-! ## The words of the flash writes (30_encoding.md R63) -/

/-- A flash-write word with its byte or-ed in, as the opcode table writes it. -/
theorem flashWriteWord_or (off : BitVec 3) (d : Byte) :
    flashWriteWord off 0#8 ||| d.zeroExtend 16 = flashWriteWord off d := by
  have hd : d.zeroExtend 16 = 0#8 ++ d := BitVec.setWidth_eq_append (by decide)
  unfold flashWriteWord mkTxn
  rw [hd, BitVec.or_append, BitVec.or_zero, BitVec.zero_or]

/-- A word of the table at a flash offset decodes by that offset and its byte. -/
theorem decode_flashWrite_or {word : Txn} {off : BitVec 3} (h : word = flashWriteWord off 0#8) (L : Layout) (d : Byte) :
    decode L (word ||| d.zeroExtend 16) = .ok (decodeFlashWrite L off d) := by
  rw [h, flashWriteWord_or, decode_flashWriteWord]

/-- Settles O6: of an odd offset the decoder rules out the two ports, and FL.WNOP has no effect. -/
theorem unusedFlashWriteChangesNothing : Obligations.UnusedFlashWriteChangesNothing := by
  refine ⟨exec_flWnop, fun L off d hodd hctrl hcmd => ?_⟩
  rw [decode_flashWriteWord, decodeFlashWrite, if_pos hodd, if_neg hctrl, if_neg hcmd]

/-! ## The lane writes (40_flash_writes.md R80 to R83) -/

section LaneWrites

/-- `l'` is `l` with the byte `b` in lane `i`, bit by bit. -/
def LaneReplaced (l l' : Latch) (i : Fin 4) (b : Byte) : Prop :=
  ∀ n, l'.getLsbD n = if 8 * i.val ≤ n ∧ n < 8 * i.val + 8 then b.getLsbD (n - 8 * i.val) else l.getLsbD n

theorem laneReplaced_setLane0 (l : Latch) (b : Byte) : LaneReplaced l (setLane0 l b) 0 b := by
  intro n
  simp only [setLane0, BitVec.getLsbD_append, BitVec.getLsbD_extractLsb']
  grind

theorem laneReplaced_setLane1 (l : Latch) (b : Byte) : LaneReplaced l (setLane1 l b) 1 b := by
  intro n
  simp only [setLane1, BitVec.getLsbD_append, BitVec.getLsbD_extractLsb']
  grind

theorem laneReplaced_setLane2 (l : Latch) (b : Byte) : LaneReplaced l (setLane2 l b) 2 b := by
  intro n
  simp only [setLane2, BitVec.getLsbD_append, BitVec.getLsbD_extractLsb']
  grind

theorem laneReplaced_setLane3 (l : Latch) (b : Byte) : LaneReplaced l (setLane3 l b) 3 b := by
  intro n
  simp only [setLane3, BitVec.getLsbD_append, BitVec.getLsbD_extractLsb']
  grind

variable {l l' : Latch} {i : Fin 4} {b : Byte}

theorem LaneReplaced.getLsbD_inside (h : LaneReplaced l l' i b) {k : Nat} (hk : k < 8) :
    l'.getLsbD (8 * i.val + k) = b.getLsbD k := by
  rw [h, if_pos (by omega), Nat.add_sub_cancel_left]

theorem LaneReplaced.getLsbD_outside (h : LaneReplaced l l' i b) {n : Nat} (hn : n < 8 * i.val ∨ 8 * i.val + 8 ≤ n) :
    l'.getLsbD n = l.getLsbD n := by
  rw [h, if_neg (by omega)]

/-- The replaced lane holds the byte. -/
theorem LaneReplaced.lane_same (h : LaneReplaced l l' i b) : lane l' i = b := by
  ext k hk
  rw [lane, BitVec.getElem_extractLsb', h.getLsbD_inside hk, BitVec.getLsbD_eq_getElem hk]

/-- A field of the latch that lies outside the replaced lane is kept. -/
theorem LaneReplaced.extractLsb'_eq (h : LaneReplaced l l' i b) {start len : Nat}
    (hout : start + len ≤ 8 * i.val ∨ 8 * i.val + 8 ≤ start) : l'.extractLsb' start len = l.extractLsb' start len := by
  ext k hk
  rw [BitVec.getElem_extractLsb', BitVec.getElem_extractLsb', h.getLsbD_outside (by omega)]

theorem LaneReplaced.lane_other (h : LaneReplaced l l' i b) {j : Fin 4} (hj : j ≠ i) : lane l' j = lane l j :=
  h.extractLsb'_eq (by have := Fin.val_ne_of_ne hj; omega)

/-- Replacing a lane of `LATCH` is a lane write. -/
theorem LaneReplaced.laneWritten {s : State} (h : LaneReplaced s.latch l' i b) : LaneWritten s (s.setLatch l') i b :=
  ⟨h.lane_same, fun _ hj => h.lane_other hj, rfl, rfl, rfl, rfl, rfl, rfl, (oneInteraction_setLatch s l').surroundings⟩

/-! ### What of the latch reaches the ROM address (41_flash_reads.md R102) -/

/-- The address before the mask is the latch with the parity bit below it. -/
theorem shiftLeft_one_add_ofBool (l : Latch) (parity : Bool) :
    (l.zeroExtend 33 <<< 1) + (BitVec.ofBool parity).zeroExtend 33 = l ++ BitVec.ofBool parity := by
  rw [BitVec.add_eq_or_of_and_eq_zero]
  · exact BitVec.setWidth_append_eq_shiftLeft_setWidth_or.symm.trans (BitVec.setWidth_eq _)
  · ext n hn
    cases n <;> simp

/-- The mask keeps the bits below the exponent of `ROM_SIZE`. -/
theorem romAddress_getLsbD (p : Params) (l : Latch) (parity : Bool) (n : Nat) :
    (romAddress p l parity).getLsbD n = ((l ++ BitVec.ofBool parity).getLsbD n && decide (n < p.romLog2.val)) := by
  have hlog := p.romLog2.isLt
  rw [romAddress, shiftLeft_one_add_ofBool, BitVec.getLsbD_and, Params.romSize, BitVec.getLsbD_ofNat,
    Nat.testBit_two_pow_sub_one]
  grind

theorem romAddress_getLsbD_succ (p : Params) (l : Latch) (parity : Bool) (n : Nat) :
    (romAddress p l parity).getLsbD (n + 1) = (l.getLsbD n && decide (n + 1 < p.romLog2.val)) := by
  rw [romAddress_getLsbD, BitVec.getLsbD_append, if_neg (by omega), Nat.add_sub_cancel]

/-- Latches that agree on the bits below the mask select the same address. -/
theorem romAddress_congr {p : Params} (h : ∀ n, n + 1 < p.romLog2.val → l'.getLsbD n = l.getLsbD n) (parity : Bool) :
    romAddress p l' parity = romAddress p l parity := by
  apply BitVec.eq_of_getLsbD_eq
  intro n _
  cases n with
  | zero => simp only [romAddress_getLsbD, BitVec.getLsbD_append]; rfl
  | succ n =>
    rw [romAddress_getLsbD_succ, romAddress_getLsbD_succ]
    by_cases hn : n + 1 < p.romLog2.val
    · rw [h n hn]
    · rw [decide_eq_false hn, Bool.and_false, Bool.and_false]

theorem romByte_setLatch_congr (s : State) {l l' : Latch}
    (h : ∀ n, n + 1 < s.params.romLog2.val → l'.getLsbD n = l.getLsbD n) (parity : Bool) :
    (s.setLatch l').romByte parity = (s.setLatch l).romByte parity :=
  congrArg (fun a : BitVec 33 => s.rom.read a.toNat) (romAddress_congr h parity)

theorem romSize_le_iff {p : Params} {k : Nat} : p.romSize ≤ 2 ^ k ↔ p.romLog2.val ≤ k :=
  Nat.pow_le_pow_iff_right (by decide)

/-- A lane at or above the mask reaches no ROM byte. -/
theorem LaneReplaced.romByte_eq {s : State} (h : LaneReplaced s.latch l' i b)
    (hsize : s.params.romSize ≤ 2 ^ (8 * i.val + 1)) (parity : Bool) :
    (s.setLatch l').romByte parity = s.romByte parity := by
  have hlog := romSize_le_iff.1 hsize
  exact romByte_setLatch_congr s (l := s.latch) (fun n hn => h.getLsbD_outside (by omega)) parity

/-- Bytes that differ in bit 0 give another address where the mask passes the lowest bit of their lane. -/
theorem LaneReplaced.romAddress_ne {p : Params} {l₁ l₂ : Latch} {d₁ d₂ : Byte} (h₁ : LaneReplaced l l₁ i d₁)
    (h₂ : LaneReplaced l l₂ i d₂) (hsize : 2 ^ (8 * i.val + 1) < p.romSize) (hne : d₁.getLsbD 0 ≠ d₂.getLsbD 0)
    (parity : Bool) : romAddress p l₁ parity ≠ romAddress p l₂ parity := by
  intro heq
  have hlog : 8 * i.val + 1 < p.romLog2.val := lt_of_not_ge (mt romSize_le_iff.2 (not_le_of_gt hsize))
  have hbit := congrArg (fun a => a.getLsbD (8 * i.val + 1)) heq
  simp only [romAddress_getLsbD_succ, decide_eq_true hlog, Bool.and_true] at hbit
  exact hne ((h₁.getLsbD_inside (k := 0) (by decide)).symm.trans (hbit.trans (h₂.getLsbD_inside (k := 0) (by decide))))

/-- The mask is at most 32 bits wide, so bit 31 of the latch reaches no ROM byte. -/
theorem LaneReplaced.romByte_bit31 {s : State} {l₁ l₂ : Latch} {d₁ d₂ : Byte} (h₁ : LaneReplaced s.latch l₁ 3 d₁)
    (h₂ : LaneReplaced s.latch l₂ 3 d₂) (hlow : d₂.extractLsb' 0 7 = d₁.extractLsb' 0 7) (parity : Bool) :
    (s.setLatch l₂).romByte parity = (s.setLatch l₁).romByte parity := by
  have hlog := s.params.romLog2.isLt
  have hbit (k : Nat) (hk : k < 7) : d₂.getLsbD k = d₁.getLsbD k := by
    have hx := congrArg (fun x => x.getLsbD k) hlow
    simpa [hk] using hx
  refine romByte_setLatch_congr s (fun n hn => ?_) parity
  by_cases hin : 24 ≤ n
  · obtain ⟨k, rfl⟩ := Nat.exists_eq_add_of_le hin
    exact (h₂.getLsbD_inside (by omega)).trans ((hbit k (by omega)).trans (h₁.getLsbD_inside (by omega)).symm)
  · exact (h₂.getLsbD_outside (.inl (by omega))).trans (h₁.getLsbD_outside (.inl (by omega))).symm

end LaneWrites

/-- A lane write above latch-low16 does not change what a command write then does (00_scope.md R14). -/
theorem LaneReplaced.commandWrite_same {s t₁ t₂ : State} {l' : Latch} {i : Fin 4} {b v : Byte}
    (h : LaneReplaced s.latch l' i b) (hi : 16 ≤ 8 * i.val) (h₁ : exec (.flWcmd v) s = .next t₁)
    (h₂ : exec (.flWcmd v) (s.setLatch l') = .next t₂) : t₂.fsm = t₁.fsm ∧ t₂.cmd = t₁.cmd := by
  have hlow : l'.extractLsb' 0 16 = s.latch.extractLsb' 0 16 := h.extractLsb'_eq (.inl (by omega))
  obtain ⟨u₁, u₂, hu₁, hu₂, hsame⟩ := upperLatchNeverAffectsTheCommandMachine s (s.setLatch l') v hlow rfl rfl
  cases hu₁.symm.trans h₁
  cases hu₂.symm.trans h₂
  exact hsame

/-- Settles O1: each `setLane` is `LaneReplaced` for its lane, and what that leaves alone is latch-low16 and the bits
outside the mask. -/
theorem laneWritesReplaceTheirByte : Obligations.LaneWritesReplaceTheirByte := by
  refine ⟨fun s d => ⟨⟨?_, _, exec_flWlane0 s d, (laneReplaced_setLane0 s.latch d).laneWritten⟩,
    ⟨?_, _, exec_flWlane1 s d, (laneReplaced_setLane1 s.latch d).laneWritten⟩,
    ⟨?_, _, exec_flWlane2 s d, (laneReplaced_setLane2 s.latch d).laneWritten⟩,
    ⟨?_, _, exec_flWlane3 s d, (laneReplaced_setLane3 s.latch d).laneWritten⟩⟩,
    fun s t t₁ t₂ d v h h₁ h₂ => ?_, fun s t d parity h hsize => ?_,
    fun s t t' d d' parity h h' hsize hne => ?_, fun s t d parity h hsize => ?_,
    fun s t t' d d' parity h h' hlow => ?_⟩
  · exact decode_flashWrite_or (off := 0) rfl _ d
  · exact decode_flashWrite_or (off := 2) rfl _ d
  · exact decode_flashWrite_or (off := 4) rfl _ d
  · exact decode_flashWrite_or (off := 6) rfl _ d
  · obtain h | h := h
    · cases h; exact (laneReplaced_setLane2 s.latch d).commandWrite_same (by decide) h₁ h₂
    · cases h; exact (laneReplaced_setLane3 s.latch d).commandWrite_same (by decide) h₁ h₂
  · cases h; exact (laneReplaced_setLane2 s.latch d).romByte_eq hsize parity
  · cases h; cases h'
    exact (laneReplaced_setLane2 s.latch d).romAddress_ne (laneReplaced_setLane2 s.latch d') hsize hne parity
  · cases h; exact (laneReplaced_setLane3 s.latch d).romByte_eq hsize parity
  · cases h; cases h'
    exact (laneReplaced_setLane3 s.latch d).romByte_bit31 (laneReplaced_setLane3 s.latch d') hlow parity

/-! ## The unlock-control write (40_flash_writes.md R84) -/

/-- Settles O3: the write is `setUnlk` of the bit, which touches no other field. -/
theorem unlockControlWriteSetsTheFlag : Obligations.UnlockControlWriteSetsTheFlag := by
  intro s d
  exact ⟨decode_flashWrite_or (off := 1) rfl _ d, _, exec_flWctrl s d, rfl, rfl, rfl, rfl, rfl, rfl, rfl,
    (oneInteraction_setUnlk s _).surroundings⟩

/-! ## The command machine (40_flash_writes.md R85 to R88) -/

section CommandMachine

variable {s t : State} {v c : Byte} {lo : BitVec 16}

/-- A command write that moves neither `FSM` nor `CMD` changes nothing at all. -/
theorem commandWrite_eq_self (hfsm : nextFsm s.fsm v (low16 s.latch) = s.fsm)
    (hcmd : nextCmd s.fsm s.cmd v (low16 s.latch) = s.cmd) : s.commandWrite v = s := by
  rw [State.commandWrite, hfsm, hcmd]
  rfl

theorem nextFsm_idle_match (h : v = 0xAA#8 ∧ lo = 0x5555#16) : nextFsm .idle v lo = .unlock1 := if_pos h
theorem nextFsm_idle_mismatch (h : ¬(v = 0xAA#8 ∧ lo = 0x5555#16)) : nextFsm .idle v lo = .idle := if_neg h
theorem nextFsm_unlock1_match (h : v = 0x55#8 ∧ lo = 0x2AAA#16) : nextFsm .unlock1 v lo = .unlock2 := if_pos h
theorem nextFsm_unlock1_mismatch (h : ¬(v = 0x55#8 ∧ lo = 0x2AAA#16)) : nextFsm .unlock1 v lo = .unlock1 := if_neg h
theorem nextFsm_unlock2_match (h : lo = 0x5555#16) : nextFsm .unlock2 v lo = .idle := if_pos h
theorem nextFsm_unlock2_mismatch (h : lo ≠ 0x5555#16) : nextFsm .unlock2 v lo = .unlock2 := if_neg h
theorem nextCmd_unlock2_match (h : lo = 0x5555#16) : nextCmd .unlock2 c v lo = v := if_pos h
theorem nextCmd_unlock2_mismatch (h : lo ≠ 0x5555#16) : nextCmd .unlock2 c v lo = c := if_neg h

/-- Before step 3 a command write keeps `CMD`. -/
theorem nextCmd_of_ne_unlock2 {f : Fsm} (h : f ≠ .unlock2) : nextCmd f c v lo = c := by
  cases f with
  | idle | unlock1 => rfl
  | unlock2 => exact absurd rfl h

/-- `CMD` after a command write is the old one or the byte written, and which one does not depend on the old one. -/
theorem nextCmd_cases (f : Fsm) (v : Byte) (lo : BitVec 16) :
    (∀ c, nextCmd f c v lo = c) ∨ (∀ c, nextCmd f c v lo = v) := by
  by_cases hf : f = .unlock2
  · subst hf
    by_cases hlo : lo = 0x5555#16
    · exact .inr fun _ => nextCmd_unlock2_match hlo
    · exact .inl fun _ => nextCmd_unlock2_mismatch hlo
  · exact .inl fun _ => nextCmd_of_ne_unlock2 hf

/-- The command machine enters IDLE in step 3 only, and `CMD` becomes the byte written (40_flash_writes.md R87, R92). -/
theorem nextFsm_enters_idle {f : Fsm} (hne : f ≠ .idle) (h : nextFsm f v lo = .idle) :
    f = .unlock2 ∧ lo = 0x5555#16 ∧ nextCmd f c v lo = v := by
  cases f with
  | idle => exact absurd rfl hne
  | unlock1 =>
    by_cases hm : v = 0x55#8 ∧ lo = 0x2AAA#16
    · rw [nextFsm_unlock1_match hm] at h; cases h
    · rw [nextFsm_unlock1_mismatch hm] at h; cases h
  | unlock2 =>
    by_cases hlo : lo = 0x5555#16
    · exact ⟨rfl, hlo, nextCmd_unlock2_match hlo⟩
    · rw [nextFsm_unlock2_mismatch hlo] at h; cases h

end CommandMachine

/-- Settles O4: in IDLE and UNLOCK1 the write keeps `CMD`, so where it keeps `FSM` too the state is the same. -/
theorem unlockStepsOneAndTwo : Obligations.UnlockStepsOneAndTwo := by
  intro s v
  refine ⟨_, exec_flWcmd s v, fun hf => ?_, fun hf => ?_⟩
  · have hcmd : nextCmd s.fsm s.cmd v (low16 s.latch) = s.cmd := by rw [hf]; rfl
    refine ⟨hcmd, fun hm => ?_, fun hm => commandWrite_eq_self ?_ hcmd⟩
    · rw [commandWrite_fsm, hf, nextFsm_idle_match hm]
    · rw [hf, nextFsm_idle_mismatch hm]
  · have hcmd : nextCmd s.fsm s.cmd v (low16 s.latch) = s.cmd := by rw [hf]; rfl
    refine ⟨hcmd, fun hm => ?_, fun hm => commandWrite_eq_self ?_ hcmd⟩
    · rw [commandWrite_fsm, hf, nextFsm_unlock1_match hm]
    · rw [hf, nextFsm_unlock1_mismatch hm]

/-- Settles O5: the transition functions in UNLOCK2, and the fields that a command write does not reach. -/
theorem stepThreeLatchesAnyCommand : Obligations.StepThreeLatchesAnyCommand := by
  intro s v
  refine ⟨decode_flashWrite_or (off := 3) rfl _ v, _, exec_flWcmd s v, fun hf hlo => ⟨?_, ?_⟩, fun hf hlo => ?_,
    rfl, rfl, rfl, rfl, rfl, (oneInteraction_commandWrite s v).surroundings⟩
  · rw [commandWrite_cmd, hf, nextCmd_unlock2_match hlo]
  · rw [commandWrite_fsm, hf, nextFsm_unlock2_match hlo]
  · exact commandWrite_eq_self (by rw [hf, nextFsm_unlock2_mismatch hlo]) (by rw [hf, nextCmd_unlock2_mismatch hlo])

/-- Settles O29: an access that changes `FSM` is a command write, and `nextFsm` enters IDLE in step 3 only. -/
theorem idleIsReachedByStepThreeOrResetOnly : Obligations.IdleIsReachedByStepThreeOrResetOnly := by
  intro s t h hs ht
  have hne : t.fsm ≠ s.fsm := fun heq => hs (heq.symm.trans ht)
  obtain ⟨⟨-, hf, -, -⟩, -⟩ | ⟨hreset, -⟩ | ⟨i, rest, hi, hb⟩ := step_blockEffect h
  · exact absurd hf hne
  · exact .inl hreset
  · obtain ⟨v, rfl⟩ := hb.fsm_changed hne
    cases hb with
    | unchanged hsame => obtain ⟨⟨-, hf, -, -⟩, -⟩ := hsame; exact absurd hf hne
    | lane hlane => obtain ⟨d, hd | hd | hd | hd⟩ := hlane <;> cases hd
    | command => exact .inr ⟨v, hi, nextFsm_enters_idle hs ht⟩

/-! ## What the accesses do not see (40_flash_writes.md R90, R93) -/

section Independence

variable (s : State)

/-- `FSM` plays no part in the ROM read path. -/
theorem romReadPath_setFsm (f : Fsm) (parity se : Bool) :
    (s.setFsm f).romReadPath parity se = (s.romReadPath parity se).setFsm f := by
  cases h : s.readArray with
  | false => rw [romReadPath_off s h, romReadPath_off (s.setFsm f) h]; rfl
  | true => rw [romReadPath_on s h, romReadPath_on (s.setFsm f) h]; split <;> rfl

/-- A data-port read is no command write, so it keeps `FSM`. -/
theorem exec_dataPort_fsm {s t : State} {i : Instr} {n : Bool} (hi : i = .flRdlo n ∨ i = .flRdhi n)
    (h : exec i s = .next t) : t.fsm = s.fsm := by
  by_contra hne
  obtain ⟨v, hv⟩ := (exec_blockEffect h).fsm_changed hne
  obtain rfl | rfl := hi <;> cases hv

/-- Of `CMD` the read-array test sees only whether it is 0xF0. -/
theorem readArray_setCmd {c : Byte} (hc : c = 0xF0#8 ↔ s.cmd = 0xF0#8) : (s.setCmd c).readArray = s.readArray := by
  rw [Bool.eq_iff_iff, readArray_iff, readArray_iff, setCmd_cmd, setCmd_unlk, hc]

/-- With the same answer to the read-array test the read path does the same, and carries `CMD` along. -/
theorem romReadPath_setCmd {c : Byte} (hc : c = 0xF0#8 ↔ s.cmd = 0xF0#8) (parity se : Bool) :
    (s.setCmd c).romReadPath parity se = (s.romReadPath parity se).setCmd c := by
  have hmode := readArray_setCmd s hc
  cases h : s.readArray with
  | false => rw [romReadPath_off s h, romReadPath_off _ (hmode.trans h)]; rfl
  | true => rw [romReadPath_on s h, romReadPath_on _ (hmode.trans h)]; split <;> rfl

theorem soundRead_setCmd (c : Byte) (off : BitVec 2) (n : Bool) :
    (s.setCmd c).soundRead off n = (s.soundRead off n).setCmd c := by
  rw [soundRead_eq, soundRead_eq, setCmd_params]
  cases soundIndex s.params.soundMode off <;> rfl

theorem soundWrite_setCmd (c : Byte) (off : BitVec 2) (v : Byte) :
    (s.setCmd c).soundWrite off v = (s.soundWrite off v).setCmd c := by
  rw [soundWrite_eq, soundWrite_eq, setCmd_params]
  cases soundIndex s.params.soundMode off <;> rfl

variable {s}

/-- Every access but a command write commutes with a change of `CMD` that keeps the answer to the read-array test. -/
theorem exec_setCmd {t : State} {i : Instr} {c : Byte} (hc : c = 0xF0#8 ↔ s.cmd = 0xF0#8) (hi : ∀ v, i ≠ .flWcmd v)
    (h : exec i s = .next t) : exec i (s.setCmd c) = .next (t.setCmd c) := by
  cases i with
  | flWcmd v => exact absurd rfl (hi v)
  | flRdlo | flRdhi => cases h; exact congrArg _ (romReadPath_setCmd s hc _ _)
  | ioSndr off n => cases h; exact congrArg _ (soundRead_setCmd s c off n)
  | ioSndw off v => cases h; exact congrArg _ (soundWrite_setCmd s c off v)
  | _ => cases h; rfl

/-- Only a command write changes `CMD`. -/
theorem exec_keeps_cmd {t : State} {i : Instr} (hi : ∀ v, i ≠ .flWcmd v) (h : exec i s = .next t) :
    t.cmd = s.cmd := by
  by_contra hne
  obtain ⟨v, hv, -⟩ := (exec_blockEffect h).cmd_changed hne
  exact hi v hv

end Independence

/-- Settles O24: each meaning is an update of fields that the other side does not hold, the read path by
`romReadPath_setFsm`. -/
theorem commandMachineAndUnlockFlagAreIndependent : Obligations.CommandMachineAndUnlockFlagAreIndependent := by
  refine ⟨fun s t v u h => ?_, fun s t d f c h => ?_, fun i s t f n hi h => ⟨exec_dataPort_fsm hi h, ?_⟩⟩
  · cases h; exact ⟨rfl, rfl⟩
  · cases h; exact ⟨rfl, rfl, rfl⟩
  · obtain rfl | rfl := hi <;> cases h <;> exact congrArg _ (romReadPath_setFsm s f _ _)

/-- Settles O25: a command write keeps or overwrites both values alike, and every other access commutes with the
change by `exec_setCmd`. -/
theorem commandByteMattersOnlyAsTheReadArrayTest : Obligations.CommandByteMattersOnlyAsTheReadArrayTest := by
  intro i s c hc
  by_cases hi : ∃ v, i = .flWcmd v
  · obtain ⟨v, rfl⟩ := hi
    refine ⟨_, _, exec_flWcmd s v, exec_flWcmd _ v, rfl, ?_⟩
    obtain hkeep | hset := nextCmd_cases s.fsm v (low16 s.latch)
    · exact .inr ⟨hkeep s.cmd, hkeep c⟩
    · exact .inl ((hset c).trans (hset s.cmd).symm)
  · have hi' : ∀ v, i ≠ .flWcmd v := fun v hv => hi ⟨v, hv⟩
    obtain ⟨t, ht, -⟩ := exec_completes s i
    exact ⟨t, _, ht, exec_setCmd hc hi' ht, rfl, .inr ⟨exec_keeps_cmd hi' ht, rfl⟩⟩

/-! ## The words of `UNLOCKCMD` (30_encoding.md R73; 40_flash_writes.md R92) -/

section UnlockCmd

variable {s t : State}

/-- Running one access more, from the word that the layout gives it. -/
theorem runSteps_encode {i : Instr} {rest : List HostInput} (k : Nat) (hv : s.params.layout.valid = true)
    (hw : i.wellFormed s.params.layout = true) (hp : s.pending = .access (encode s.params.layout i) :: rest)
    (he : exec i (s.take rest) = .next t) : runSteps (k + 1) s = runSteps k t :=
  runSteps_access k hv hp (roundTrip i _ hv hw) he

/-- A run goes on from where its first part ends. -/
theorem runSteps_add {m : Nat} (k : Nat) (h : runSteps m s = .next t) : runSteps (m + k) s = runSteps k t := by
  induction m generalizing s with
  | zero => cases h; rw [Nat.zero_add]
  | succ m ih =>
    obtain ⟨u, hu, hrun⟩ := runSteps_succ_next h
    rw [Nat.add_right_comm, runSteps_succ (m + k) hu, ih hrun]

/-- Writes of lanes 0 and 1 replace latch-low16. -/
theorem setLane1_setLane0 (l : Latch) (a : BitVec 16) :
    setLane1 (setLane0 l (a.extractLsb' 0 8)) (a.extractLsb' 8 8) = l.extractLsb' 16 16 ++ a := by
  have hhigh : (setLane0 l (a.extractLsb' 0 8)).extractLsb' 16 16 = l.extractLsb' 16 16 :=
    (laneReplaced_setLane0 l _).extractLsb'_eq (.inr (by decide))
  have ha : a.extractLsb' 8 8 ++ a.extractLsb' 0 8 = a := BitVec.extractLsb'_append_extractLsb' (w := 8) (len := 8)
  rw [setLane1, setLane0_low8, hhigh, BitVec.append_assoc, BitVec.cast_eq, ha]

/-- The words of `SETLOW16 a` and a command write of `v`: one third of `UNLOCKCMD`. -/
def unlockWords (L : Layout) (a : BitVec 16) (v : Byte) : List Txn := asmSetLow16 L a ++ [encode L (.flWcmd v)]

/-- The state after `unlockWords`, with `rest` left of the host's sequence. -/
def State.unlockWrite (s : State) (a : BitVec 16) (v : Byte) (rest : List HostInput) : State :=
  { (s.setLatch (s.latch.extractLsb' 16 16 ++ a)).commandWrite v with pending := rest, pos := s.pos + 3 }

theorem runSteps_unlockWrite {a : BitVec 16} {v : Byte} {rest : List HostInput} (k : Nat)
    (hv : s.params.layout.valid = true) (hp : s.pending = accesses (unlockWords s.params.layout a v) ++ rest) :
    runSteps (k + 3) s = runSteps k (s.unlockWrite a v rest) := by
  rw [runSteps_encode (k + 2) hv rfl hp (exec_flWlane0 ..), runSteps_encode (k + 1) (by exact hv) rfl rfl
    (exec_flWlane1 ..), runSteps_encode k (by exact hv) rfl rfl (exec_flWcmd ..)]
  simp only [take_latch, setLatch_latch, setLane1_setLane0]
  rfl

theorem unlockWrite_low16 (a : BitVec 16) (v : Byte) (rest : List HostInput) :
    (s.unlockWrite a v rest).latch.extractLsb' 0 16 = a := BitVec.extractLsb'_append_eq_right

theorem unlockWrite_high16 (a : BitVec 16) (v : Byte) (rest : List HostInput) :
    (s.unlockWrite a v rest).latch.extractLsb' 16 16 = s.latch.extractLsb' 16 16 := BitVec.extractLsb'_append_eq_left

theorem unlockWrite_fsm (a : BitVec 16) (v : Byte) (rest : List HostInput) :
    (s.unlockWrite a v rest).fsm = nextFsm s.fsm v a :=
  congrArg (nextFsm s.fsm v) BitVec.extractLsb'_append_eq_right

theorem unlockWrite_cmd (a : BitVec 16) (v : Byte) (rest : List HostInput) :
    (s.unlockWrite a v rest).cmd = nextCmd s.fsm s.cmd v a :=
  congrArg (nextCmd s.fsm s.cmd v) BitVec.extractLsb'_append_eq_right

/-- The words of `UNLOCKCMD` are three times an address and a command write. -/
theorem accesses_unlockCmd (L : Layout) (c : Byte) (rest : List HostInput) :
    accesses (asmUnlockCmd L c) ++ rest = accesses (unlockWords L 0x5555 0xAA) ++
      (accesses (unlockWords L 0x2AAA 0x55) ++ (accesses (unlockWords L 0x5555 c) ++ rest)) := rfl

end UnlockCmd

/-- Settles O37: three `runSteps_unlockWrite`, and the transition functions at the three writes from each `FSM`. -/
theorem unlockCmdEndsWhereItsStartSays : Obligations.UnlockCmdEndsWhereItsStartSays := by
  intro s c rest hv hp
  rw [accesses_unlockCmd] at hp
  have hthree := (runSteps_unlockWrite 6 hv hp).trans <| (runSteps_unlockWrite 3 (by exact hv) rfl).trans <|
    runSteps_unlockWrite 0 (by exact hv) rfl
  refine ⟨_, hthree, rfl, unlockWrite_low16 .., ?_, rfl, rfl, rfl, rfl,
    fun hf => ?_, fun hf => ?_⟩
  · simp only [unlockWrite_high16]
  · simp only [unlockWrite_cmd, unlockWrite_fsm]
    cases hs : s.fsm with
    | idle | unlock1 => exact ⟨rfl, rfl⟩
    | unlock2 => exact absurd hs hf
  · simp only [unlockWrite_cmd, unlockWrite_fsm, hf]
    exact ⟨rfl, by simp [nextFsm]⟩

/-- Settles O38: the first `UNLOCKCMD` never ends in UNLOCK2, and from elsewhere the second reaches IDLE. -/
theorem unlockCmdTwiceRecovers : Obligations.UnlockCmdTwiceRecovers := by
  intro s c rest hv hp
  have hsplit : s.pending = accesses (asmUnlockCmd s.params.layout c) ++
      (accesses (asmUnlockCmd s.params.layout c) ++ rest) := hp
  obtain ⟨t, hrun, htp, -, -, -, -, -, -, hother, hunlock2⟩ := unlockCmdEndsWhereItsStartSays s c _ hv hsplit
  have hparams : t.params = s.params :=
    (runSteps_keeps (SameRomAndParams s) SameRomAndParams.step 9 hrun ⟨rfl, rfl⟩).2
  have hne : t.fsm ≠ .unlock2 := by
    by_cases hf : s.fsm = .unlock2
    · rw [(hunlock2 hf).2]; split <;> simp
    · rw [(hother hf).2]; simp
  obtain ⟨u, hrun', hup, -, -, -, -, -, -, hend, -⟩ :=
    unlockCmdEndsWhereItsStartSays t c rest (hparams ▸ hv) (hparams ▸ htp)
  exact ⟨u, (runSteps_add 9 hrun).trans hrun', hup, (hend hne).2, (hend hne).1⟩

end Sys2Proof.Machine
end

section
/-! PROOF. The flash window's reads (41_flash_reads.md): the ROM address as arithmetic, the read path as one equation,
peeks, and `RDWORD` repeated. -/

namespace Sys2Proof.Machine

/-! ## The ROM address (41_flash_reads.md R102) -/

section RomAddress

variable (p : Params) (l : Latch) (parity : Bool)

/-- The latch with the parity bit below it, as a number. -/
theorem toNat_append_ofBool : (l ++ BitVec.ofBool parity).toNat = 2 * l.toNat + parity.toNat := by
  rw [BitVec.toNat_append, BitVec.toNat_ofBool, ← Nat.shiftLeft_add_eq_or_of_lt (Bool.toNat_lt parity),
    Nat.shiftLeft_eq, pow_one, mul_comm]

theorem romSize_dvd_two_pow_32 : p.romSize ∣ 2 ^ 32 := pow_dvd_pow 2 (Nat.le_of_lt_succ p.romLog2.isLt)

/-- `ROM_SIZE` is a power of two, so the mask is a remainder. -/
theorem and_romSize_sub_one (i : Nat) : i &&& (p.romSize - 1) = i % p.romSize := Nat.and_two_pow_sub_one_eq_mod i _

/-- The mask fits a word of 32 bits or more. -/
theorem toNat_mask {w : Nat} (hw : 32 ≤ w) : (BitVec.ofNat w (p.romSize - 1)).toNat = p.romSize - 1 := by
  have hsize : p.romSize ≤ 2 ^ w := romSize_le_iff.2 ((Nat.le_of_lt_succ p.romLog2.isLt).trans hw)
  have hpos := romSize_pos p
  rw [BitVec.toNat_ofNat, Nat.mod_eq_of_lt (by omega)]

/-- The address before the mask, in 33 bits, is the concatenation of the latch and the parity bit. -/
theorem romAddress_eq_append_and :
    romAddress p l parity = (l ++ BitVec.ofBool parity) &&& BitVec.ofNat 33 (p.romSize - 1) := by
  rw [romAddress, shiftLeft_one_add_ofBool]

theorem romAddress_toNat : (romAddress p l parity).toNat = (2 * l.toNat + parity.toNat) % p.romSize := by
  rw [romAddress_eq_append_and, BitVec.toNat_and, toNat_mask p (by decide), toNat_append_ofBool, and_romSize_sub_one]

/-- In 32 bits the shift loses bit 31 of the latch, which is above every mask (D6). -/
theorem shifted32_toNat :
    ((l <<< 1) + (BitVec.ofBool parity).zeroExtend 32).toNat = (2 * l.toNat + parity.toNat) % 2 ^ 32 := by
  have hparity : ((BitVec.ofBool parity).zeroExtend 32).toNat = parity.toNat := by cases parity <;> rfl
  rw [BitVec.toNat_add, BitVec.toNat_shiftLeft, hparity, Nat.mod_add_mod, Nat.shiftLeft_eq, pow_one, mul_comm]

theorem romAddress_toNat_eq_32bit : (romAddress p l parity).toNat =
    (((l <<< 1) + (BitVec.ofBool parity).zeroExtend 32) &&& BitVec.ofNat 32 (p.romSize - 1)).toNat := by
  rw [romAddress_toNat, BitVec.toNat_and, toNat_mask p le_rfl, shifted32_toNat, and_romSize_sub_one,
    Nat.mod_mod_of_dvd _ (romSize_dvd_two_pow_32 p)]

end RomAddress

/-- Settles O9: the shifted latch plus the parity bit is their concatenation, and the mask takes it modulo `ROM_SIZE`,
which divides 2^32. -/
theorem romAddressIsTheMaskedConcatenation : Obligations.RomAddressIsTheMaskedConcatenation := by
  intro p l parity
  refine ⟨romAddress_lt_romSize p l parity, romAddress_eq_append_and p l parity, romAddress_toNat p l parity,
    romAddress_toNat_eq_32bit p l parity, fun hsize => BitVec.eq_of_toNat_eq ?_⟩
  rw [romAddress_toNat, hsize, Nat.mod_one]
  rfl

/-! ## The read path (41_flash_reads.md R100, R101) -/

section ReadPath

variable {s : State} (parity : Bool)

/-- The byte that the read path selects is the image's, at the index that wraps at its end. -/
theorem romByte_eq_imageByte (s : State) : s.romByte parity = s.imageByte (2 * s.latch.toNat + parity.toNat) := by
  rw [State.romByte, romAddress_toNat, State.imageByte]

theorem romByte_eq_read_masked (s : State) :
    s.romByte parity = s.rom.read ((2 * s.latch.toNat + parity.toNat) &&& (s.params.romSize - 1)) := by
  rw [and_romSize_sub_one, romByte_eq_imageByte, State.imageByte]

theorem dataPortByte_on (hmode : s.cmd = 0xF0#8 ∧ s.unlk = true) : s.dataPortByte parity = s.romByte parity :=
  if_pos ((readArray_iff s).2 hmode)

theorem dataPortByte_off (hmode : ¬(s.cmd = 0xF0#8 ∧ s.unlk = true)) : s.dataPortByte parity = 0 :=
  if_neg (mt (readArray_iff s).1 hmode)

/-- `LATCH` after an odd data-port read with peek qualifier `n`: the auto-increment. -/
def State.latchAfterOddRead (s : State) (n : Bool) : Latch :=
  if s.readArray ∧ n = false then s.latch + 1 else s.latch

/-- An even data-port read returns its byte and does nothing else, peek or not. -/
theorem exec_evenRead (s : State) (n : Bool) : exec (.flRdlo n) s = .next (s.ret (s.dataPortByte false)) := by
  rw [exec_flRdlo]
  cases h : s.readArray with
  | false => rw [romReadPath_off s h, State.dataPortByte, h]; rfl
  | true => rw [romReadPath_on s h, State.dataPortByte, h]; rfl

/-- An odd data-port read returns the byte that the old latch selects, and writes `LATCH` alone. -/
theorem exec_oddRead (s : State) (n : Bool) :
    exec (.flRdhi n) s = .next ((s.setLatch (s.latchAfterOddRead n)).ret (s.dataPortByte true)) := by
  rw [exec_flRdhi]
  cases h : s.readArray with
  | false => rw [romReadPath_off s h, State.dataPortByte, State.latchAfterOddRead, h]; rfl
  | true => rw [romReadPath_on s h, State.dataPortByte, State.latchAfterOddRead, h]; cases n <;> rfl

theorem latchAfterOddRead_on (hmode : s.cmd = 0xF0#8 ∧ s.unlk = true) (n : Bool) :
    s.latchAfterOddRead n = if n then s.latch else s.latch + 1 := by
  rw [State.latchAfterOddRead, (readArray_iff s).2 hmode]
  cases n <;> rfl

theorem latchAfterOddRead_off (hmode : ¬(s.cmd = 0xF0#8 ∧ s.unlk = true)) (n : Bool) :
    s.latchAfterOddRead n = s.latch := if_neg (fun ⟨hread, _⟩ => hmode ((readArray_iff s).1 hread))

theorem latchAfterOddRead_peek (s : State) : s.latchAfterOddRead true = s.latch :=
  if_neg (fun ⟨_, hpeek⟩ => Bool.noConfusion hpeek)

/-- The auto-increment wraps at 32 bits. -/
theorem latchAfterOddRead_toNat (s : State) (n : Bool) : (s.latchAfterOddRead n).toNat =
    if s.cmd = 0xF0#8 ∧ s.unlk = true ∧ n = false then (s.latch.toNat + 1) % 2 ^ 32 else s.latch.toNat := by
  simp only [State.latchAfterOddRead, readArray_iff, and_assoc, apply_ite BitVec.toNat, BitVec.toNat_add]
  rfl

end ReadPath

/-- Settles O7: `exec_evenRead` and `exec_oddRead` give the whole next state, so the byte and the latch are those of the
two modes and every other field is kept. -/
theorem readPathReturnsTheSelectedByte : Obligations.ReadPathReturnsTheSelectedByte := by
  intro s n
  refine ⟨_, _, exec_evenRead s n, exec_oddRead s n, fun hmode => ⟨?_, ?_, latchAfterOddRead_on hmode n⟩,
    fun hmode => ⟨?_, ?_, latchAfterOddRead_off hmode n⟩, rfl, ?_⟩
  · rw [dataPortByte_on _ hmode, romByte_eq_read_masked]; rfl
  · rw [dataPortByte_on _ hmode, romByte_eq_read_masked]; rfl
  · rw [dataPortByte_off _ hmode]; rfl
  · rw [dataPortByte_off _ hmode]; rfl
  · rintro t (rfl | rfl)
    · exact ⟨rfl, rfl, rfl, rfl, rfl, (oneInteraction_ret s _).surroundings⟩
    · exact ⟨rfl, rfl, rfl, rfl, rfl, (exec_oneInteraction (exec_oddRead s n)).surroundings⟩

/-- Settles O8: the odd read is `exec_oddRead`, and `BlockEffect` lists the accesses that write the latch. -/
theorem latchIncrementWrapsAndHappensNowhereElse : Obligations.LatchIncrementWrapsAndHappensNowhereElse := by
  refine ⟨fun s n => ⟨_, exec_oddRead s n, latchAfterOddRead_toNat s n, fun hlatch hcmd hunlk hn => ?_,
    fun hcmd hunlk => ?_⟩, fun i s t h => (exec_blockEffect h).latch_changed⟩
  · rw [ret_latch, setLatch_latch, latchAfterOddRead_on ⟨hcmd, hunlk⟩, hn, hlatch]; rfl
  · rw [dataPortByte_on _ ⟨hcmd, hunlk⟩]; rfl

/-! ## Peeks (41_flash_reads.md R107) -/

/-- Settles O11: of the next state of an odd read only `LATCH` depends on the peek qualifier, and of the other reads
nothing. -/
theorem peekReturnsTheSameByteAndNeverAdvances : Obligations.PeekReturnsTheSameByteAndNeverAdvances := by
  intro s
  refine ⟨_, _, exec_oddRead s false, exec_oddRead s true, rfl, latchAfterOddRead_peek s, ?_, ?_, fun off => ?_⟩
  · rw [latchAfterOddRead_peek]; rfl
  · rw [exec_evenRead, exec_evenRead]
  · simp only [exec_flRzero01, exec_flRzero47, and_self]

/-! ## The other offsets (41_flash_reads.md R103, R106) -/

/-- Settles O10: both rows are `ret 0`, and the decoder reaches them once the offset is neither data port. -/
theorem otherFlashReadsReturnZero : Obligations.OtherFlashReadsReturnZero := by
  have hsame (s : State) : SameSurroundings s (s.ret 0) := (oneInteraction_ret s 0).surroundings
  refine ⟨fun s off n => ⟨_, exec_flRzero01 s off n, rfl, sameBlock_ret s 0, rfl, hsame s⟩,
    fun s off n => ⟨_, exec_flRzero47 s off n, rfl, sameBlock_ret s 0, rfl, hsame s⟩, fun L off n heven hodd => ?_⟩
  rw [decode_flashReadWord, decodeFlashRead, if_neg heven, if_neg hodd]

/-! ## `RDWORD` repeated (41_flash_reads.md R109; 30_encoding.md R73) -/

section ReadWords

variable {s : State}

/-- `ROM_SIZE` divides 2^32, so the image repeats with the latch. -/
theorem imageByte_congr (s : State) {i j : Nat} (h : i ≡ j [MOD 2 ^ 32]) : s.imageByte i = s.imageByte j :=
  congrArg s.rom.read (h.of_dvd (romSize_dvd_two_pow_32 s.params))

/-- The state after `RDWORD` in read-array mode, with `rest` left of the host's sequence. -/
def State.readWord (s : State) (rest : List HostInput) : State :=
  { ((s.setLatch (s.latch + 1)).ret (s.imageByte (2 * s.latch.toNat))).ret (s.imageByte (2 * s.latch.toNat + 1)) with
    pending := rest, pos := s.pos + 2 }

theorem readWord_returned (rest : List HostInput) : (s.readWord rest).returned =
    s.returned ++ [s.imageByte (2 * s.latch.toNat), s.imageByte (2 * s.latch.toNat + 1)] :=
  List.append_assoc s.returned [_] [_]

theorem readWord_latch_toNat (rest : List HostInput) : (s.readWord rest).latch.toNat = (s.latch.toNat + 1) % 2 ^ 32 :=
  BitVec.toNat_add s.latch 1

/-- The stream from the next word is the stream from this one, two bytes on. -/
theorem readWord_imageByte (rest : List HostInput) (k : Nat) :
    (s.readWord rest).imageByte (2 * (s.readWord rest).latch.toNat + k) =
      s.imageByte (2 * s.latch.toNat + (2 + k)) := by
  have hindex : 2 * (s.readWord rest).latch.toNat + k ≡ 2 * s.latch.toNat + (2 + k) [MOD 2 ^ 32] := by
    rw [readWord_latch_toNat, Nat.ModEq]
    omega
  exact imageByte_congr s hindex

/-- Two steps over `RDWORD` in read-array mode. -/
theorem runSteps_readWord {rest : List HostInput} (k : Nat) (hv : s.params.layout.valid = true)
    (hmode : s.cmd = 0xF0#8 ∧ s.unlk = true) (hp : s.pending = accesses (asmRdWord s.params.layout) ++ rest) :
    runSteps (k + 2) s = runSteps k (s.readWord rest) := by
  rw [runSteps_encode (k + 1) hv rfl hp (exec_evenRead ..), runSteps_encode k (by exact hv) rfl rfl (exec_oddRead ..),
    dataPortByte_on _ (by exact hmode), dataPortByte_on _ (by exact hmode), latchAfterOddRead_on (by exact hmode),
    romByte_eq_imageByte, romByte_eq_imageByte]
  rfl

end ReadWords

/-- Settles O39, by induction on the number of words: each is `runSteps_readWord`, after which the stream goes on. -/
theorem sequentialReadsStreamTheImage : Obligations.SequentialReadsStreamTheImage := by
  intro n
  induction n with
  | zero =>
    intro s rest _ _ _ hp
    exact ⟨s, rfl, hp, (List.append_nil _).symm, (Nat.mod_eq_of_lt s.latch.isLt).symm, rfl, rfl, rfl, rfl, rfl⟩
  | succ n ih =>
    intro s rest hv hcmd hunlk hp
    have hsplit : s.pending = accesses (asmRdWord s.params.layout) ++
        (accesses (readWords s.params.layout n) ++ rest) := hp
    obtain ⟨t, hrun, hpending, hbytes, hlatch, hframe⟩ :=
      ih (s.readWord (accesses (readWords s.params.layout n) ++ rest)) rest hv hcmd hunlk rfl
    refine ⟨t, (runSteps_readWord (2 * n) hv ⟨hcmd, hunlk⟩ hsplit).trans hrun, hpending, ?_, ?_, hframe⟩
    · simp only [readWord_imageByte] at hbytes
      rw [hbytes, readWord_returned, List.append_assoc, Nat.mul_succ, Nat.add_comm (2 * n), List.range_add,
        List.map_append, List.map_map]
      rfl
    · rw [hlatch, readWord_latch_toNat, Nat.mod_add_mod, Nat.add_assoc, Nat.add_comm 1 n]

end Sys2Proof.Machine
end

section
/-! PROOF. The I/O board window (42_ioboard.md): the words of its accesses, the sound index, the snapshots, the offsets
without a meaning, the EEPROM lines, and that the two windows share no state. -/

namespace Sys2Proof.Machine

/-! ## The words of the I/O accesses (30_encoding.md R65, R66) -/

section IoWords

variable (L : Layout)

/-- An I/O-write word with its byte or-ed in, as the opcode table writes it. -/
theorem ioWriteWord_or (off : BitVec 4) (d : Byte) : ioWriteWord off 0#8 ||| d.zeroExtend 16 = ioWriteWord off d := by
  have hd : d.zeroExtend 16 = 0#8 ++ d := BitVec.setWidth_eq_append (by decide)
  unfold ioWriteWord mkTxn
  rw [hd, BitVec.or_append, BitVec.or_zero, BitVec.zero_or]

/-- An I/O-read word with its peek bit or-ed in, as the opcode table writes it. -/
theorem ioReadWord_or (off : BitVec 4) (n : Bool) : ioReadWord off false ||| peekBit n = ioReadWord off n := by
  revert off n; decide

/-- A write word of the table at an I/O offset decodes by that offset and its byte. -/
theorem decode_ioWrite_or {word : Txn} {off : BitVec 4} (h : word = ioWriteWord off 0#8) (d : Byte) :
    decode L (word ||| d.zeroExtend 16) = .ok (decodeIoWrite off d) := by
  rw [h, ioWriteWord_or, decode_ioWriteWord]

/-- A read word of the table at an I/O offset decodes by that offset and its peek bit. -/
theorem decode_ioRead_or {word : Txn} {off : BitVec 4} (h : word = ioReadWord off false) (n : Bool) :
    decode L (word ||| peekBit n) = .ok (decodeIoRead off n) := by
  rw [h, ioReadWord_or, decode_ioReadWord]

/-! The offset field placed in the word of a row. -/

theorem writeWord_or_offset (off : BitVec 4) : 0xC000#16 ||| (off.zeroExtend 16 <<< 8) = ioWriteWord off 0#8 := by
  revert off; decide

theorem readWord_or_offset (off : BitVec 4) : 0x4000#16 ||| (off.zeroExtend 16 <<< 8) = ioReadWord off false := by
  revert off; decide

/-- A sound offset is an I/O offset with the upper two bits 0. -/
theorem zeroExtend_soundOffset (off : BitVec 2) : off.zeroExtend 16 = (0b00#2 ++ off).zeroExtend 16 := by
  revert off; decide

theorem decode_soundWriteWord (off : BitVec 2) (v : Byte) :
    decode Layout.reference (0xC000#16 ||| (off.zeroExtend 16 <<< 8) ||| v.zeroExtend 16) = .ok (.ioSndw off v) := by
  rw [zeroExtend_soundOffset, writeWord_or_offset, ioWriteWord_or]
  exact roundTrip (.ioSndw off v) _ Layout.reference_valid rfl

theorem decode_soundReadWord (off : BitVec 2) (n : Bool) :
    decode Layout.reference (0x4000#16 ||| (off.zeroExtend 16 <<< 8) ||| peekBit n) = .ok (.ioSndr off n) := by
  rw [zeroExtend_soundOffset, readWord_or_offset, ioReadWord_or]
  exact roundTrip (.ioSndr off n) _ Layout.reference_valid rfl

end IoWords

/-! ## The sound accesses (42_ioboard.md R121 to R123) -/

section Sound

variable {s : State} {off i : BitVec 2}

theorem soundIndex_verbatim (off : BitVec 2) : soundIndex .verbatim off = some off := rfl

theorem soundIndex_evenOnly_even (h : off = 0 ∨ off = 2) :
    soundIndex .evenOnly off = some (if off = 2 then 1 else 0) := by
  obtain rfl | rfl := h <;> rfl

theorem soundIndex_evenOnly_odd (h : off = 1 ∨ off = 3) : soundIndex .evenOnly off = none := by
  obtain rfl | rfl := h <;> rfl

theorem soundRead_reaching (h : soundIndex s.params.soundMode off = some i) (n : Bool) :
    Returns s (s.soundRead off n) (s.draw (.sndRead i n)) ∧ Performs s (s.soundRead off n) (.query (.sndRead i n)) := by
  rw [soundRead_eq, h]
  exact ⟨rfl, rfl⟩

theorem soundRead_unmapped (h : soundIndex s.params.soundMode off = none) (n : Bool) :
    Returns s (s.soundRead off n) 0 ∧ PerformsNothing s (s.soundRead off n) := by
  rw [soundRead_eq, h]
  exact ⟨rfl, rfl⟩

theorem soundWrite_reaching (h : soundIndex s.params.soundMode off = some i) (v : Byte) :
    Performs s (s.soundWrite off v) (.sndWrite i v) := by
  rw [soundWrite_eq, h]
  rfl

theorem soundWrite_unmapped (h : soundIndex s.params.soundMode off = none) (v : Byte) :
    PerformsNothing s (s.soundWrite off v) := by
  rw [soundWrite_eq, h]
  rfl

theorem soundWrite_returnsNothing (s : State) (off : BitVec 2) (v : Byte) : ReturnsNothing s (s.soundWrite off v) := by
  obtain ⟨hbytes, -⟩ := soundWrite_observed s off v
  exact hbytes.trans (List.append_nil _)

end Sound

/-- Settles O14: in each mode the clause is the index that the offset reaches, and what a read of it does. -/
theorem soundReadDrawsItsIndex : Obligations.SoundReadDrawsItsIndex := by
  intro s off n
  refine ⟨decode_soundReadWord off n, _, exec_ioSndr s off n, fun hmode => ?_, fun hmode heven => ?_,
    fun hmode hodd => ?_, sameBlock_soundRead s off n, (oneInteraction_soundRead s off n).surroundings⟩
  · exact soundRead_reaching (hmode ▸ soundIndex_verbatim off) n
  · exact soundRead_reaching (hmode ▸ soundIndex_evenOnly_even heven) n
  · exact soundRead_unmapped (hmode ▸ soundIndex_evenOnly_odd hodd) n

/-- Settles O15: in each mode the clause is the index that the offset reaches, and what a write of it does. -/
theorem soundWriteForwardsItsByte : Obligations.SoundWriteForwardsItsByte := by
  intro s off v
  refine ⟨decode_soundWriteWord off v, _, exec_ioSndw s off v, fun hmode => ?_, fun hmode heven => ?_,
    fun hmode hodd => ?_, soundWrite_returnsNothing s off v, sameBlock_soundWrite s off v,
    (oneInteraction_soundWrite s off v).surroundings⟩
  · exact soundWrite_reaching (hmode ▸ soundIndex_verbatim off) v
  · exact soundWrite_reaching (hmode ▸ soundIndex_evenOnly_even heven) v
  · exact soundWrite_unmapped (hmode ▸ soundIndex_evenOnly_odd hodd) v

/-! ## The snapshot reads (42_ioboard.md R124 to R128) -/

theorem sameBlock_queryByte (s : State) (q : Query) : SameBlock s (s.queryByte q) := ⟨⟨rfl, rfl, rfl, rfl⟩, rfl⟩

/-- Settles O16: each read is the `queryByte` of its own source. -/
theorem snapshotReadsReturnTheirOwnSource : Obligations.SnapshotReadsReturnTheirOwnSource := by
  intro s n
  refine ⟨decode_ioRead_or (off := 0x8) _ rfl n, decode_ioRead_or (off := 0x9) _ rfl n,
    decode_ioRead_or (off := 0xA) _ rfl n, decode_ioRead_or (off := 0xB) _ rfl n, _, _, _, _,
    exec_ioRin0 s n, exec_ioRsys s n, exec_ioRin1 s n, exec_ioRin2 s n, rfl, rfl, rfl, rfl, rfl, rfl, rfl, rfl, ?_⟩
  rintro t (rfl | rfl | rfl | rfl) <;>
    exact ⟨sameBlock_queryByte s _, (oneInteraction_queryByte s _).surroundings⟩

/-! ## The offsets without a meaning (42_ioboard.md R129, R130) -/

section Unmapped

variable {off : BitVec 4}

theorem not_soundOffset (h : 4 ≤ off.toNat) : ¬off ≤ 0x3#4 := fun hle => Nat.not_le_of_lt h hle

/-- What a read at an unmapped or write-only offset decodes to returns 0 and does nothing else. -/
theorem exec_decodeIoRead_unmapped (h : (4 ≤ off.toNat ∧ off.toNat ≤ 7) ∨ off = 0xC ∨ off = 0xD ∨ off = 0xF)
    (n : Bool) (s : State) : exec (decodeIoRead off n) s = .next (s.ret 0) := by
  obtain ⟨hlow, hhigh⟩ | rfl | rfl | rfl := h
  · have h7 : off ≤ 0x7#4 := hhigh
    rw [decodeIoRead, if_neg (not_soundOffset hlow), if_pos h7, exec_ioRzero47]
  · exact exec_ioRzerocd s _ n
  · exact exec_ioRzerocd s _ n
  · exact exec_ioRzerof s n

/-- What a write at an offset from 4 on but 0xC decodes to does nothing. -/
theorem exec_decodeIoWrite_unmapped (hlow : 4 ≤ off.toNat) (hC : off ≠ 0xC#4) (d : Byte) (s : State) :
    exec (decodeIoWrite off d) s = .next s := by
  rw [decodeIoWrite, if_neg (not_soundOffset hlow), if_neg hC]
  split_ifs with h7 hB hD
  · exact exec_ioWnop47 s _ d
  · exact exec_ioWnop8b s _ d
  · exact exec_ioWnopd s d
  · exact exec_ioWnopef s _ d

end Unmapped

/-- Settles O17: the three rows are `ret 0`, and the decoder reaches them at these offsets. -/
theorem unmappedIoReadsReturnZero : Obligations.UnmappedIoReadsReturnZero := by
  refine ⟨fun s o2 o1 n => ⟨_, exec_ioRzero47 s o2 n, exec_ioRzerocd s o1 n, exec_ioRzerof s n, rfl,
    sameBlock_ret s 0, rfl, (oneInteraction_ret s 0).surroundings⟩, fun s L off n hoff => ?_⟩
  exact ⟨_, _, decode_ioRead_or L (readWord_or_offset off) n, exec_decodeIoRead_unmapped hoff n s, rfl⟩

/-- Settles O18: the four rows have no effect, and the decoder reaches them at these offsets. -/
theorem unmappedIoWritesDoNothing : Obligations.UnmappedIoWritesDoNothing := by
  refine ⟨fun s o2 o1 d => ⟨exec_ioWnop47 s o2 d, exec_ioWnop8b s o2 d, exec_ioWnopd s d, exec_ioWnopef s o1 d⟩,
    fun s L off d hlow hC => ?_⟩
  exact ⟨_, decode_ioWrite_or L (writeWord_or_offset off) d, exec_decodeIoWrite_unmapped hlow hC d s⟩

/-! ## The EEPROM lines (42_ioboard.md R131 to R133) -/

/-- Bits 7:3 of the byte play no part in the levels. -/
theorem eeLinesOf_congr {d d' : Byte} (h : ∀ k, k < 3 → d'.getLsbD k = d.getLsbD k) : eeLinesOf d' = eeLinesOf d := by
  rw [eeLinesOf, eeLinesOf, h 0 (by decide), h 1 (by decide), h 2 (by decide)]

/-- Settles O19: the write is `driveEe` of the three bits, and of the byte only these matter. -/
theorem eepromWriteDrivesThreeLines : Obligations.EepromWriteDrivesThreeLines := by
  intro s d
  refine ⟨decode_ioWrite_or (off := 0xC) _ rfl d, _, exec_ioWee s d, rfl, rfl, rfl, rfl, rfl, ⟨rfl, rfl, rfl, rfl⟩,
    (oneInteraction_driveEe s _).surroundings, fun d' hbits => ?_⟩
  rw [exec_ioWee, eeLinesOf_congr hbits]

theorem eeDataByte_bit0 (level : Bool) : (eeDataByte level).getLsbD 0 = level := by
  cases level <;> rfl

theorem eeDataByte_upperBits (level : Bool) : ∀ k, 1 ≤ k → k < 8 → (eeDataByte level).getLsbD k = true := by
  have hbits : ∀ k < 8, 1 ≤ k → (eeDataByte level).getLsbD k = true := by revert level; decide
  exact fun k hlow hhigh => hbits k hhigh hlow

theorem eeDataByte_cases (level : Bool) : eeDataByte level = 0xFE#8 ∨ eeDataByte level = 0xFF#8 := by
  cases level with
  | false => exact .inl rfl
  | true => exact .inr rfl

theorem sameBlock_readEeDataOut (s : State) : SameBlock s s.readEeDataOut := ⟨⟨rfl, rfl, rfl, rfl⟩, rfl⟩

/-- Settles O20: the byte is `eeDataByte` of the drawn level. -/
theorem eepromDataOutReadsFEOrFF : Obligations.EepromDataOutReadsFEOrFF := by
  intro s n
  exact ⟨decode_ioRead_or (off := 0xE) _ rfl n, _, _, exec_ioRee s n, rfl, eeDataByte_bit0 _, eeDataByte_upperBits _,
    eeDataByte_cases _, rfl, sameBlock_readEeDataOut s, (oneInteraction_readEeDataOut s).surroundings⟩

/-! ## The two windows share no state (42_ioboard.md R134) -/

section Windows

variable {s t : State} {i : Instr}

/-- The state with other values in the four flash elements. -/
def State.setFlash (s : State) (l : Latch) (f : Fsm) (c : Byte) (u : Bool) : State :=
  { s with latch := l, fsm := f, cmd := c, unlk := u }

theorem soundRead_setFlash (s : State) (l : Latch) (f : Fsm) (c : Byte) (u : Bool) (off : BitVec 2) (n : Bool) :
    (s.setFlash l f c u).soundRead off n = (s.soundRead off n).setFlash l f c u := by
  have hparams : (s.setFlash l f c u).params = s.params := rfl
  rw [soundRead_eq, soundRead_eq, hparams]
  cases soundIndex s.params.soundMode off <;> rfl

theorem soundWrite_setFlash (s : State) (l : Latch) (f : Fsm) (c : Byte) (u : Bool) (off : BitVec 2) (v : Byte) :
    (s.setFlash l f c u).soundWrite off v = (s.soundWrite off v).setFlash l f c u := by
  have hparams : (s.setFlash l f c u).params = s.params := rfl
  rw [soundWrite_eq, soundWrite_eq, hparams]
  cases soundIndex s.params.soundMode off <;> rfl

/-- `EE` plays no part in the ROM read path. -/
theorem romReadPath_setEe (s : State) (e : EeLines) (parity se : Bool) :
    (s.setEe e).romReadPath parity se = (s.romReadPath parity se).setEe e := by
  cases h : s.readArray with
  | false => rw [romReadPath_off s h, romReadPath_off (s.setEe e) h]; rfl
  | true => rw [romReadPath_on s h, romReadPath_on (s.setEe e) h]; split <;> rfl

/-- Of the writers of the block only the EEPROM-line write is an I/O access. -/
theorem BlockEffect.sameFlash_of_isIo (h : BlockEffect s i t) (hio : i.isIo = true) : SameFlash s t := by
  cases h with
  | unchanged h =>
    obtain ⟨hflash, -⟩ := h
    exact hflash
  | lane h => obtain ⟨d, rfl | rfl | rfl | rfl⟩ := h <;> cases hio
  | oddRead | control | command => cases hio
  | eeprom => exact ⟨rfl, rfl, rfl, rfl⟩

theorem BlockEffect.ee_eq_of_flash (h : BlockEffect s i t) (hflash : i.isIo = false) : t.ee = s.ee := by
  by_contra hne
  obtain ⟨d, rfl⟩ := h.ee_changed hne
  cases hflash

theorem externalEffects_of_flash (m : SoundLaneMode) (hflash : i.isIo = false) : externalEffects m i = [] := by
  cases i with
  | flWlane0 | flWctrl | flWlane1 | flWcmd | flWlane2 | flWnop | flWlane3 => rfl
  | flRzero01 | flRdlo | flRdhi | flRzero47 => rfl
  | _ => cases hflash

theorem exec_flash_performsNothing (hflash : i.isIo = false) (h : exec i s = .next t) : PerformsNothing s t := by
  obtain ⟨u, hu, -, hevents⟩ := exec_observed s i
  cases hu.symm.trans h
  rw [PerformsNothing, hevents, externalEffects_of_flash _ hflash, List.append_nil]

/-- An I/O access carries any change of the flash elements along. -/
theorem exec_setFlash (hio : i.isIo = true) (h : exec i s = .next t) (l : Latch) (f : Fsm) (c : Byte) (u : Bool) :
    exec i (s.setFlash l f c u) = .next (t.setFlash l f c u) := by
  cases i with
  | flWlane0 | flWctrl | flWlane1 | flWcmd | flWlane2 | flWnop | flWlane3 => cases hio
  | flRzero01 | flRdlo | flRdhi | flRzero47 => cases hio
  | ioSndr off n => cases h; exact congrArg _ (soundRead_setFlash s l f c u off n)
  | ioSndw off v => cases h; exact congrArg _ (soundWrite_setFlash s l f c u off v)
  | _ => cases h; rfl

/-- A flash access carries any change of `EE` along. -/
theorem exec_setEe (hflash : i.isIo = false) (h : exec i s = .next t) (e : EeLines) :
    exec i (s.setEe e) = .next (t.setEe e) := by
  cases i with
  | flWlane0 | flWctrl | flWlane1 | flWcmd | flWlane2 | flWnop | flWlane3 => cases h; rfl
  | flRzero01 | flRzero47 => cases h; rfl
  | flRdlo | flRdhi => cases h; exact congrArg _ (romReadPath_setEe s e _ _)
  | _ => cases hflash

end Windows

/-- Settles O27: each window keeps the other's elements by `BlockEffect`, and carries a change of them along. -/
theorem windowsShareNoState : Obligations.WindowsShareNoState := by
  refine ⟨fun i s t l f c u hio h => ?_, fun i s t e hflash h => ?_⟩
  · exact ⟨(exec_blockEffect h).sameFlash_of_isIo hio, exec_setFlash hio h l f c u⟩
  · exact ⟨(exec_blockEffect h).ee_eq_of_flash hflash, exec_flash_performsNothing hflash h, exec_setEe hflash h e⟩

end Sys2Proof.Machine
end

section
/-! PROOF. Exceptions (60_exceptions.md): every access completes, a read with one byte and a write with none, and a
step is refused for one of three reasons only. -/

namespace Sys2Proof.Machine

section Completion

variable {s t : State} {i : Instr}

/-- A read returns one byte. -/
theorem bytesReturned_of_read (s : State) (hread : i.isRead = true) : ∃ b, s.bytesReturned i = [b] := by
  cases i with
  | flRzero01 | flRdlo | flRdhi | flRzero47 => exact ⟨_, rfl⟩
  | ioSndr | ioRzero47 | ioRin0 | ioRsys | ioRin1 | ioRin2 | ioRzerocd | ioRee | ioRzerof => exact ⟨_, rfl⟩
  | _ => cases hread

theorem Observed.returns_of_read (h : Observed s i t) (hread : i.isRead = true) : ∃ b, Returns s t b := by
  obtain ⟨b, hb⟩ := bytesReturned_of_read s hread
  obtain ⟨hbytes, -⟩ := h
  exact ⟨b, by rw [Returns, hbytes, hb]⟩

theorem Observed.returnsNothing_of_write (h : Observed s i t) (hwrite : i.isRead = false) : ReturnsNothing s t := by
  obtain ⟨hbytes, -⟩ := h
  rw [ReturnsNothing, hbytes, bytesReturned_of_write s hwrite, List.append_nil]

end Completion

/-- Settles O21: `exec_observed` gives the next state and the bytes returned, and `Fault` has no constructor. -/
theorem everyAccessCompletes : Obligations.EveryAccessCompletes := by
  refine ⟨fun i s => ?_, fun _ f _ => nomatch f⟩
  obtain ⟨t, ht, ho⟩ := exec_observed s i
  exact ⟨t, ht, ho.returns_of_read, ho.returnsNothing_of_write⟩

/-! ## The refusals (60_exceptions.md R152, 20_memory.md R44, 30_encoding.md R67) -/

section Refusals

variable {s : State} {rest : List HostInput} {r : Refusal}

theorem step_invalidConfiguration (hv : s.params.layout.valid = false) : step s = .refused .invalidConfiguration := by
  simp [step, fetch, hv]

/-- A step with a wide access next. -/
theorem step_wide (hv : s.params.layout.valid = true) (hp : s.pending = .wide :: rest) :
    step s = .refused .wideAccess := by
  simp [step, fetch, hv, hp]

/-- A step with a word next that the decoder refuses. -/
theorem step_reserved {w : Txn} {e : ReservedWord} (hv : s.params.layout.valid = true)
    (hp : s.pending = .access w :: rest) (hd : decode s.params.layout w = .error e) :
    step s = .refused (.reserved e) := by
  simp [step, fetch, hv, hp, hd]

theorem exec_ne_refused (i : Instr) (s : State) (r : Refusal) : exec i s ≠ .refused r := by
  obtain ⟨t, ht, -⟩ := exec_completes s i
  rw [ht]
  nofun

/-- The three ways a step is refused, one for each place where `fetch` refuses: `exec` refuses nothing. -/
theorem step_refused_cases (h : step s = .refused r) :
    (s.params.layout.valid = false ∧ r = .invalidConfiguration) ∨
    (s.params.layout.valid = true ∧ (∃ rest, s.pending = .wide :: rest) ∧ r = .wideAccess) ∨
    (s.params.layout.valid = true ∧ ∃ w rest e, s.pending = .access w :: rest ∧
      decode s.params.layout w = .error e ∧ r = .reserved e) := by
  cases hv : s.params.layout.valid with
  | false =>
    cases (step_invalidConfiguration hv).symm.trans h
    exact .inl ⟨rfl, rfl⟩
  | true =>
    match hp : s.pending with
    | [] => cases (step_idle hv hp).symm.trans h
    | .reset :: rest => cases (step_reset hv hp).symm.trans h
    | .wide :: rest =>
      cases (step_wide hv hp).symm.trans h
      exact .inr (.inl ⟨rfl, ⟨rest, rfl⟩, rfl⟩)
    | .access w :: rest =>
      cases hd : decode s.params.layout w with
      | ok i => exact absurd ((step_access hv hp hd).symm.trans h) (exec_ne_refused i _ r)
      | error e =>
        cases (step_reserved hv hp hd).symm.trans h
        exact .inr (.inr ⟨rfl, w, rest, e, rfl, hd, rfl⟩)

end Refusals

/-- Settles O36: `step_refused_cases`, and conversely the step of each case. -/
theorem stepsAreRefusedNowhereElse : Obligations.StepsAreRefusedNowhereElse := by
  refine ⟨fun s hv hp => step_idle hv hp, fun s r => ⟨step_refused_cases, ?_⟩⟩
  rintro (⟨hv, rfl⟩ | ⟨hv, ⟨rest, hp⟩, rfl⟩ | ⟨hv, w, rest, e, hp, hd, rfl⟩)
  · exact step_invalidConfiguration hv
  · exact step_wide hv hp
  · exact step_reserved hv hp hd

end Sys2Proof.Machine
end

section
/-! PROOF. Reset and the hazards (70_reset_and_hazards.md): the state at the start of a run, what the reset input keeps,
what a read finds right after it, the boot sequence, and the odd reads that move the latch at the wrong time. -/

namespace Sys2Proof.Machine

/-! ## The start of a run (70_reset_and_hazards.md R171) -/

/-- Settles O34: `State.reset` and `resetParams` hold these values, and with no cell listed every byte is free. -/
theorem startOfRunState : Obligations.StartOfRunState :=
  ⟨rfl, rfl, rfl, rfl, rfl, rfl, rfl, rfl, Memory.read_nil, rfl, rfl, rfl⟩

/-- Settles O52: the reference layout is valid, no ROM cell is listed, and nothing was returned or sent outside. -/
theorem startOfRunMeetsTheInvariant : Obligations.StartOfRunMeetsTheInvariant :=
  ⟨Layout.reference_valid, Memory.wf_nil, rfl, le_rfl, le_rfl⟩

/-! ## The reset input (70_reset_and_hazards.md R170, R172) -/

/-- Settles O33: the step is `resetBlock` after taking the reset input, and neither update reaches these fields. -/
theorem resetKeepsEverythingElse : Obligations.ResetKeepsEverythingElse := by
  intro s t rest hv hp h
  cases (step_reset hv hp).symm.trans h
  exact ⟨rfl, rfl, rfl, fun _ => rfl, rfl, rfl⟩

theorem readArray_of_locked {s : State} (h : s.unlk = false) : s.readArray = false := by
  rw [State.readArray, h, Bool.and_false]

/-- Outside read-array mode every flash-window read returns 0 and does nothing else. -/
theorem exec_flashRead_off {s : State} {i : Instr} (hmode : s.readArray = false) (hflash : i.isIo = false)
    (hread : i.isRead = true) : exec i s = .next (s.ret 0) := by
  cases i with
  | flRzero01 off n => exact exec_flRzero01 s off n
  | flRzero47 off n => exact exec_flRzero47 s off n
  | flRdlo n => rw [exec_flRdlo, romReadPath_off s hmode]
  | flRdhi n => rw [exec_flRdhi, romReadPath_off s hmode]
  | flWlane0 | flWctrl | flWlane1 | flWcmd | flWlane2 | flWnop | flWlane3 => cases hread
  | _ => cases hflash

/-- Settles O35: the reset leaves read-array mode, so the read that follows is `exec_flashRead_off`. -/
theorem afterResetFlashReadsReturnZero : Obligations.AfterResetFlashReadsReturnZero := by
  intro s w rest i hv hp hd hflash hread
  have hreset : runSteps 2 s = runSteps 1 (s.take (.access w :: rest)).resetBlock :=
    runSteps_succ 1 (step_reset hv hp)
  have haccess := runSteps_access 0 (s := (s.take (.access w :: rest)).resetBlock) hv rfl hd
    (exec_flashRead_off (readArray_of_locked rfl) hflash hread)
  exact ⟨_, hreset.trans haccess, rfl, rfl, rfl, rfl, rfl, rfl, rfl, rfl⟩

/-! ## The boot sequence (70_reset_and_hazards.md R173) -/

section Boot

variable {s : State} {rest : List HostInput}

/-- The four bytes of a latch value, put together again. -/
theorem append_four_lanes (a : Latch) :
    a.extractLsb' 24 8 ++ a.extractLsb' 16 8 ++ a.extractLsb' 8 8 ++ a.extractLsb' 0 8 = a := by
  have h1 : a.extractLsb' 24 8 ++ a.extractLsb' 16 8 = a.extractLsb' 16 16 :=
    BitVec.extractLsb'_append_extractLsb'_eq_extractLsb' rfl
  have h2 : a.extractLsb' 16 16 ++ a.extractLsb' 8 8 = a.extractLsb' 8 24 :=
    BitVec.extractLsb'_append_extractLsb'_eq_extractLsb' rfl
  rw [h1, h2]
  exact BitVec.extractLsb'_append_extractLsb'

/-- Four steps over `SETLATCH a`. -/
theorem runSteps_setLatch {a : Latch} (k : Nat) (hv : s.params.layout.valid = true)
    (hp : s.pending = accesses (asmSetLatch s.params.layout a) ++ rest) :
    runSteps (k + 4) s = runSteps k { s.setLatch a with pending := rest, pos := s.pos + 4 } := by
  rw [runSteps_encode (k + 3) hv rfl hp (exec_flWlane0 ..), runSteps_encode (k + 2) (by exact hv) rfl rfl
    (exec_flWlane1 ..), runSteps_encode (k + 1) (by exact hv) rfl rfl (exec_flWlane2 ..),
    runSteps_encode k (by exact hv) rfl rfl (exec_flWlane3 ..)]
  simp only [take_latch, setLatch_latch, setLanes_eq_append, append_four_lanes]
  rfl

/-- The byte 0x01 sets the flag where `UNLOCK_BIT` is 0. -/
theorem unlockFlagOf_one {p : Params} (h : p.unlockBit = 0) : unlockFlagOf p 0x01 = true := by
  rw [unlockFlagOf, h]
  rfl

/-- The words of the boot sequence, cut where its proof cuts the run. -/
theorem accesses_boot (L : Layout) (a : Latch) (rest : List HostInput) :
    accesses (asmReadArray L ++ asmSetLatch L a ++ asmRdWord L) ++ rest = accesses (asmUnlockCmd L 0xF0) ++
      .access (encode L (.flWctrl 0x01)) :: (accesses (asmSetLatch L a) ++ (accesses (asmRdWord L) ++ rest)) := rfl

/-- Seven steps over the rest of the boot sequence, once `CMD` is 0xF0: setting the flag enters read-array mode. -/
theorem runSteps_bootRead {a : Latch} (hv : s.params.layout.valid = true) (hbit : s.params.unlockBit = 0)
    (hcmd : s.cmd = 0xF0#8) (hp : s.pending = .access (encode s.params.layout (.flWctrl 0x01)) ::
      (accesses (asmSetLatch s.params.layout a) ++ (accesses (asmRdWord s.params.layout) ++ rest))) :
    runSteps 7 s =
      .next ({ (s.setUnlk true).setLatch a with pos := s.pos + 5 : State }.readWord rest) := by
  rw [runSteps_encode 6 hv rfl hp (exec_flWctrl ..), runSteps_setLatch 2 (by exact hv) rfl,
    runSteps_readWord 0 (by exact hv) (by exact ⟨hcmd, unlockFlagOf_one hbit⟩) rfl]
  simp only [take_params, unlockFlagOf_one hbit]
  rfl

end Boot

/-- Settles O40: `UNLOCKCMD 0xF0` ends in IDLE with the command latched, and the rest is `runSteps_bootRead`. -/
theorem bootSequenceReadsTheWord : Obligations.BootSequenceReadsTheWord := by
  intro s a rest hv hbit hf hp
  rw [accesses_boot] at hp
  obtain ⟨t, hrun, htp, -, -, -, hee, hbytes, -, hend, -⟩ := unlockCmdEndsWhereItsStartSays s 0xF0 _ hv hp
  obtain ⟨hcmd, hfsm⟩ := hend hf
  obtain ⟨hrom, hparams⟩ := runSteps_keeps (SameRomAndParams s) SameRomAndParams.step 9 hrun ⟨rfl, rfl⟩
  have himage (j : Nat) : t.imageByte j = s.imageByte j := by rw [State.imageByte, hrom, hparams, State.imageByte]
  rw [← hparams] at hv hbit htp
  refine ⟨_, (runSteps_add 7 hrun).trans (runSteps_bootRead hv hbit hcmd htp), rfl, ?_, rfl, hfsm, hcmd, rfl, hee⟩
  rw [readWord_returned, ← himage, ← himage, ← hbytes]
  rfl

/-! ## Clearing the flag (70_reset_and_hazards.md R182) -/

/-- Settles O41: the flag alone is written, and while it is clear the odd read is `exec_flashRead_off`. -/
theorem clearingTheFlagKeepsTheCommand : Obligations.ClearingTheFlagKeepsTheCommand := by
  intro s d0 d1 hcmd hunlk hclear hset
  have hrestored : unlockFlagOf s.params d1 = s.unlk := hset.trans hunlk.symm
  refine ⟨_, exec_flWctrl s d0, hcmd, rfl, rfl,
    ⟨_, exec_flashRead_off (readArray_of_locked hclear) rfl rfl, rfl, rfl⟩, ?_⟩
  rw [exec_flWctrl, setUnlk_params, hrestored]
  rfl

/-! ## Odd reads at the wrong time (70_reset_and_hazards.md R180, R183) -/

section OddReads

variable {s : State}

/-- Latch-low16 at which a command write takes the step of each state (40_flash_writes.md R85 to R87). -/
def Fsm.unlockAddress : Fsm → BitVec 16
  | .idle | .unlock2 => 0x5555
  | .unlock1 => 0x2AAA

/-- A command write away from the unlock address is ignored in every state. -/
theorem commandWrite_off_address {v : Byte} (h : low16 s.latch ≠ s.fsm.unlockAddress) : s.commandWrite v = s := by
  have hkeeps : nextFsm s.fsm v (low16 s.latch) = s.fsm ∧ nextCmd s.fsm s.cmd v (low16 s.latch) = s.cmd := by
    cases hf : s.fsm with
    | idle => rw [hf] at h; exact ⟨nextFsm_idle_mismatch fun ⟨_, hlo⟩ => h hlo, rfl⟩
    | unlock1 => rw [hf] at h; exact ⟨nextFsm_unlock1_mismatch fun ⟨_, hlo⟩ => h hlo, rfl⟩
    | unlock2 => rw [hf] at h; exact ⟨nextFsm_unlock2_mismatch h, nextCmd_unlock2_mismatch h⟩
  obtain ⟨hfsm, hcmd⟩ := hkeeps
  exact commandWrite_eq_self hfsm hcmd

/-- From the unlock address an ordinary odd read in read-array mode moves latch-low16 to the next one, so that the
command write after it is ignored. -/
theorem oddRead_spoils_unlockAddress (hmode : s.cmd = 0xF0#8 ∧ s.unlk = true)
    (hlow : low16 s.latch = s.fsm.unlockAddress) (v : Byte) :
    ∃ t, exec (.flRdhi false) s = .next t ∧ low16 t.latch = s.fsm.unlockAddress + 1 ∧ t.fsm = s.fsm ∧
      exec (.flWcmd v) t = .next t := by
  have hnext : low16 (s.latchAfterOddRead false) = s.fsm.unlockAddress + 1 := by
    rw [latchAfterOddRead_on hmode, ← hlow]
    exact BitVec.extractLsb'_add (by decide)
  have hoff : s.fsm.unlockAddress + 1 ≠ s.fsm.unlockAddress := by simp
  refine ⟨_, exec_oddRead s false, hnext, rfl, ?_⟩
  rw [exec_flWcmd, commandWrite_off_address (hnext.trans_ne hoff)]

end OddReads

/-- Settles O42: both clauses are `oddRead_spoils_unlockAddress`, at the address that the state asks for. -/
theorem oddReadSpoilsTheUnlockAddress : Obligations.OddReadSpoilsTheUnlockAddress := by
  intro s v hcmd hunlk
  have hspoil := fun hlow => oddRead_spoils_unlockAddress (s := s) ⟨hcmd, hunlk⟩ hlow v
  refine ⟨fun hlow hf => ?_, fun hlow hf => ?_, _, exec_oddRead s true, latchAfterOddRead_peek s⟩
  · have haddr : s.fsm.unlockAddress = 0x5555#16 := by obtain hf | hf := hf <;> rw [hf] <;> rfl
    rw [haddr] at hspoil
    exact hspoil hlow
  · rw [hf] at hspoil ⊢
    exact hspoil hlow

/-- Settles O43: the odd read advances the latch, so the even read takes the first byte of the next word. -/
theorem oddReadFirstSkipsToTheNextWord : Obligations.OddReadFirstSkipsToTheNextWord := by
  intro s hcmd hunlk
  have hmode : s.cmd = 0xF0#8 ∧ s.unlk = true := ⟨hcmd, hunlk⟩
  refine ⟨_, _, exec_oddRead s false, exec_evenRead _ false, ?_⟩
  have hnext : s.imageByte (2 * (s.latch + 1).toNat) = s.imageByte (2 * s.latch.toNat + 2) :=
    readWord_imageByte [] 0
  rw [dataPortByte_on true hmode, latchAfterOddRead_on hmode, dataPortByte_on false (by exact hmode),
    romByte_eq_imageByte, romByte_eq_imageByte, ret_returned, ret_returned, setLatch_returned, List.append_assoc]
  exact congrArg (fun b => s.returned ++ [_, b]) hnext

end Sys2Proof.Machine
end

section
/-! PROOF. Words of the opcode map written out bit by bit (30_encoding.md section 3). -/

namespace Sys2Proof.Machine

/-- A word that a well-formed access encodes to decodes to that access, under the reference layout. -/
theorem decode_reference_of_encode {i : Instr} {w : Txn} (hword : encode Layout.reference i = w)
    (hi : i.wellFormed Layout.reference = true) : decode Layout.reference w = .ok i :=
  hword ▸ roundTrip i Layout.reference Layout.reference_valid hi

/-- Settles O50: each word is the one that its access, which is well-formed, encodes to. -/
theorem sampleWordsDecode : Obligations.SampleWordsDecode :=
  ⟨decode_reference_of_encode rfl rfl, decode_reference_of_encode rfl rfl, decode_reference_of_encode rfl rfl,
    decode_reference_of_encode rfl rfl, decode_reference_of_encode rfl rfl, decode_reference_of_encode rfl rfl,
    decode_reference_of_encode rfl rfl, decode_reference_of_encode rfl rfl⟩

end Sys2Proof.Machine
end
